-- ==== Sys2Proof/Word.lean ====
section
/-! DEFINITION. The widths the spec gives its words (00_scope.md R6, R7; 30_encoding.md R71). -/

namespace Sys2Proof

/-- A chip register, a bus word, and the 16-bit fields of a command: `REG_W` = 16 (R6). -/
abbrev Word16 := BitVec 16

/-- The address field of a bus word: `ADDR_FIELD_W` = 15 (R6). -/
abbrev Addr15 := BitVec 15

/-- The channel operand: `CH_W` = 3 (R7). -/
abbrev Chan := BitVec 3

/-- The tuning-word container: `TW_W` = 48 (R7). -/
abbrev TuningWord := BitVec 48

/-- A frequency operand: `FREQ_W` = 64 (R7). -/
abbrev Freq64 := BitVec 64

/-- A command word: `CMD_W` = 128 (R7, R60). -/
abbrev CmdWord := BitVec 128

/-- A bus frame `w1 ‖ w2`, 32 bits (R66). -/
abbrev FrameWord := BitVec 32

/-- The level of a line: `true` is 1 (high), `false` is 0 (low). -/
abbrev Level := Bool

end Sys2Proof
end

