-- ==== Sys2Proof/Config.lean ====
section
/-! DEFINITION. The parameters: those the source or the spec fixes (00_scope.md R6, R7), the configuration record of
R8 with its well-formedness, and the one free value, what the chip answers (20_memory.md R45). -/

namespace Sys2Proof

/-- `N_CH` (R6): output channels, indexed 1..4. -/
def nCh : Nat := 4

/-- `ADDR_MAX` (R6): the highest register address. -/
def addrMax : Nat := 0x007F

/-- `GROUP_THRESHOLD` (R6). -/
def groupThreshold : Nat := 0x0050

/-- `STRIDE_LO` (R6), below the threshold. -/
def strideLo : Nat := 1

/-- `STRIDE_HI` (R6), at and above the threshold. -/
def strideHi : Nat := 4

/-- `TW_FRAC_BITS` (R6): the tuning word is scaled by 2^24. -/
def twFracBits : Nat := 24

/-- `B_OFFSET` (R6): channel-1 digital-offset base address. -/
def bOffset : Word16 := 0x0025

/-- `B_START_DLY` (R6): channel-1 start-delay base address. -/
def bStartDly : Word16 := 0x005C

/-- `T_SETTLE_MIN` (R6), in ms. -/
def tSettleMin : Nat := 1

/-- `T_RUN_MIN` (R6), in ms. -/
def tRunMin : Nat := 10

/-- The largest value of the 32-bit `FCLK` (R7, R29). -/
def fclkMax : Nat := 2 ^ 32 - 1

/-- `UPD_RUN_MODE` (R8, D26): what the pattern update does to the run bit. -/
inductive UpdRunMode where
  | none
  | reassert
  | recheck
  deriving DecidableEq, Repr

/-- `SHUTDOWN_MODE` (R8, D29): what teardown does to the run bit. -/
inductive ShutdownMode where
  | triggerOnly
  | clearRun
  deriving DecidableEq, Repr

/-- The configuration record of R8. The default values are the spec's defaults; for the parameters R8 marks OPEN they are
the reference values the spec gives beside them, PRESUMED (log 2; unsafe for a claim that rests on them). -/
structure Config where
  /-- `A_PAT_STATUS`: the pattern-status register, which holds the run bit (R41). -/
  aPatStatus : Addr15 := 0x001E
  /-- `A_RAMUPDATE`: the register whose write commits the shadow bank (R41). -/
  aRamUpdate : Addr15 := 0x001D
  /-- `V_RAMUPDATE`: the value written there. -/
  vRamUpdate : Word16 := 0x0001
  /-- `A_DDS_TW_MSB` (R41). -/
  aDdsTwMsb : Addr15 := 0x003E
  /-- `A_DDS_TW_LSB` (R41). -/
  aDdsTwLsb : Addr15 := 0x003F
  /-- `B_GAIN` (R42). -/
  bGain : Addr15 := 0x0035
  /-- `B_PHASE` (R42). -/
  bPhase : Addr15 := 0x0043
  /-- `RUN_BIT`: 0..15. -/
  runBit : Fin 16 := 0
  /-- `RUN_VARIANT`. -/
  runVariant : Bool := true
  /-- `UPD_RUN_MODE`. -/
  updRunMode : UpdRunMode := .none
  /-- `SHUTDOWN_MODE`. -/
  shutdownMode : ShutdownMode := .triggerOnly
  /-- `T_SETTLE`, ms. -/
  tSettle : Nat := 1
  /-- `T_RUN`, ms. -/
  tRun : Nat := 10
  /-- `T_UPD1`, ms. -/
  tUpd1 : Nat := 10
  /-- `T_UPD2`, ms. -/
  tUpd2 : Nat := 10
  /-- `FCLK_RESET`, Hz. -/
  fclkReset : Nat := 156250000
  deriving DecidableEq, Repr

/-- R8's last column: "A configuration is well formed only if every constraint in the last column holds." -/
def Config.wf (c : Config) : Bool :=
  decide
    (c.aPatStatus.toNat ≤ addrMax ∧
    c.aRamUpdate.toNat ≤ addrMax ∧
    c.aDdsTwMsb.toNat ≤ addrMax ∧
    c.aDdsTwLsb.toNat ≤ addrMax ∧
    c.aDdsTwLsb ≠ c.aDdsTwMsb ∧
    c.bGain.toNat < groupThreshold ∧ 3 ≤ c.bGain.toNat ∧
    c.bPhase.toNat < groupThreshold ∧ 3 ≤ c.bPhase.toNat ∧
    (c.runVariant = false → c.updRunMode = .none) ∧
    (c.runVariant = false → c.shutdownMode = .triggerOnly) ∧
    tSettleMin ≤ c.tSettle ∧
    tRunMin ≤ c.tRun ∧
    1 ≤ c.fclkReset ∧ c.fclkReset ≤ fclkMax)

/-- `RUN_VALUE` = `1 << RUN_BIT`, a 16-bit value (R8). -/
def Config.runValue (c : Config) : Word16 := 1#16 <<< c.runBit.val

/-- FREE VALUE (log 4): the chip's answer to the `n`-th exchange that no lined-up answer serves. R45: "Each `XCHG(tx, rx)`
event's `rx` is a free 16-bit draw that the chip supplies." -/
opaque Config.chipDraw : Nat → Word16

end Sys2Proof
end

