-- ==== Sys2Proof/Syntax.lean ====
section
/-! DEFINITION. The instructions: one constructor per row of spec/opcode_table.json, with the operands 30_encoding.md R63
lists for it; and the code words that hold them (R60, R66). -/

namespace Sys2Proof

/-- The 15 commands of R62 and the two bus frames of R66. -/
inductive Instr where
  /-- op 0x1, R84 -/
  | regWrite (addr data : Word16)
  /-- op 0x2, R85 -/
  | regRead (addr : Word16)
  /-- op 0x3, R101 -/
  | chResolve (base : Word16) (ch : Chan)
  /-- op 0x4, R102 -/
  | chWrite (base : Word16) (ch : Chan) (data : Word16)
  /-- op 0x5, R103 -/
  | chRead (base : Word16) (ch : Chan)
  /-- op 0x6, R124; the operand is signed (R63) -/
  | freqEncode (freq : Freq64)
  /-- op 0x7, R125 -/
  | freqDecode (msb lsb : Word16)
  /-- op 0x8, R126; the operand is signed (R63) -/
  | setFreq (freq : Freq64)
  /-- op 0x9, R127 -/
  | getFreq
  /-- op 0xA, R128; the operand is unsigned (R63) -/
  | setFclk (hz : Freq64)
  /-- op 0xB, R153 -/
  | patStop
  /-- op 0xC, R154 -/
  | patStart
  /-- op 0xD, R155 -/
  | patUpdate
  /-- op 0xE, R156 -/
  | patShutdown
  /-- op 0xF, R180 -/
  | errSet (code : BitVec 3)
  /-- the frame `0 a d`, R66, R82 -/
  | frameWrite (a : Addr15) (d : Word16)
  /-- the frame `1 a 0x0000`, R66, R83 -/
  | frameRead (a : Addr15)
  deriving DecidableEq, Repr

/-- The two bit-level encodings of 30_encoding.md: a command word at the host's port (R60), a frame at the framer's (R66). -/
inductive CodeWord where
  | cmd (c : CmdWord)
  | frame (f : FrameWord)
  deriving DecidableEq, Repr

end Sys2Proof
end

