-- ==== Sys2Proof/WellFormed.lean ====
section
/-! DEFINITION. Which instructions are well formed. Every operand of a command that fits its field is admitted (30_encoding.md
R72: the assembler "does not apply the operand range checks that cause faults"), and the operand types are the fields. A frame
is well formed when its address is a register's: "DDSC sends only frames of the two forms in rule R66, with `F[30:16]` ≤
`ADDR_MAX`" (R69). -/

namespace Sys2Proof

/-- A frame address in the register domain (R69, R89). -/
def frameAddrOk (a : Addr15) : Bool := decide (a.toNat ≤ addrMax)

/-- Well-formedness of an instruction. -/
def Instr.wellFormed : Instr → Bool
  | .regWrite _ _ => true
  | .regRead _ => true
  | .chResolve _ _ => true
  | .chWrite _ _ _ => true
  | .chRead _ _ => true
  | .freqEncode _ => true
  | .freqDecode _ _ => true
  | .setFreq _ => true
  | .getFreq => true
  | .setFclk _ => true
  | .patStop => true
  | .patStart => true
  | .patUpdate => true
  | .patShutdown => true
  | .errSet _ => true
  | .frameWrite a _ => frameAddrOk a
  | .frameRead a => frameAddrOk a

end Sys2Proof
end

