-- ==== Sys2Proof/Decode.lean ====
section
/-! DEFINITION. Decoding and encoding of command words (30_encoding.md R61-R65, R70) and of bus frames (R66-R69), and the
wire order of a frame's bits (20_memory.md R43, 40_framer.md R86). -/

namespace Sys2Proof

/-- Why a code word is no instruction. -/
inductive Reject where
  /-- `op` = 0x0 (R64). -/
  | opZero
  /-- `rsv0` or `rsv1` is not 0 (R64). -/
  | reservedBits
  /-- A read frame whose second word is not the zero dummy (R66, R68). -/
  | dummyNotZero
  deriving DecidableEq, Repr

/-- The answer of the decoder: an instruction, or the reason there is none. -/
inductive Decoded where
  | instr (i : Instr)
  | rejected (r : Reject)
  deriving DecidableEq, Repr

/-- The instruction of an answer, if there is one. -/
def Decoded.toOption : Decoded → Option Instr
  | .instr i => some i
  | .rejected _ => none

/-! ## The command word's fields (R61) -/

def fieldOp (c : CmdWord) : BitVec 4 := c.extractLsb' 0 4
def fieldCh (c : CmdWord) : Chan := c.extractLsb' 4 3
def fieldRsv0 (c : CmdWord) : BitVec 1 := c.extractLsb' 7 1
def fieldCode (c : CmdWord) : BitVec 3 := c.extractLsb' 8 3
def fieldRsv1 (c : CmdWord) : BitVec 5 := c.extractLsb' 11 5
def fieldAddr (c : CmdWord) : Word16 := c.extractLsb' 16 16
def fieldData (c : CmdWord) : Word16 := c.extractLsb' 32 16
def fieldData2 (c : CmdWord) : Word16 := c.extractLsb' 48 16
def fieldArg (c : CmdWord) : Freq64 := c.extractLsb' 64 64

/-- `OPCODE_MAP` with the operands of R63 (R62, R63); `none` for the reserved op 0x0. -/
def opcodeMap (c : CmdWord) : Option Instr :=
  match (fieldOp c).toNat with
  | 0x1 => some (.regWrite (fieldAddr c) (fieldData c))
  | 0x2 => some (.regRead (fieldAddr c))
  | 0x3 => some (.chResolve (fieldAddr c) (fieldCh c))
  | 0x4 => some (.chWrite (fieldAddr c) (fieldCh c) (fieldData c))
  | 0x5 => some (.chRead (fieldAddr c) (fieldCh c))
  | 0x6 => some (.freqEncode (fieldArg c))
  | 0x7 => some (.freqDecode (fieldData c) (fieldData2 c))
  | 0x8 => some (.setFreq (fieldArg c))
  | 0x9 => some .getFreq
  | 0xA => some (.setFclk (fieldArg c))
  | 0xB => some .patStop
  | 0xC => some .patStart
  | 0xD => some .patUpdate
  | 0xE => some .patShutdown
  | 0xF => some (.errSet (fieldCode c))
  | _ => none

/-- `decode(c)` of R70, total on every 128-bit word. -/
def decodeCommand (c : CmdWord) : Decoded :=
  if fieldRsv0 c ≠ 0 ∨ fieldRsv1 c ≠ 0 then .rejected .reservedBits
  else match opcodeMap c with
    | some i => .instr i
    | none => .rejected .opZero

/-! ## The bus frame (R66) -/

/-- `w1` of a frame: `F[31:16]`. -/
def frameW1 (f : FrameWord) : Word16 := f.extractLsb' 16 16

/-- `w2` of a frame: `F[15:0]`. -/
def frameW2 (f : FrameWord) : Word16 := f.extractLsb' 0 16

/-- `F[31]`: 1 for a read, 0 for a write. -/
def frameIsRead (f : FrameWord) : Bool := f.getLsbD 31

/-- `F[30:16]`: the address field. -/
def frameAddr (f : FrameWord) : Addr15 := f.extractLsb' 16 15

/-- The frame `F = w1 ‖ w2` (R66). -/
def frameOf (w1 w2 : Word16) : FrameWord := w1 ++ w2

/-- The two frame forms of R66; total on every 32-bit word. -/
def decodeFrame (f : FrameWord) : Decoded :=
  if frameIsRead f then
    if frameW2 f = 0 then .instr (.frameRead (frameAddr f)) else .rejected .dummyNotZero
  else .instr (.frameWrite (frameAddr f) (frameW2 f))

/-- Decoding of either encoding. -/
def decode : CodeWord → Decoded
  | .cmd c => decodeCommand c
  | .frame f => decodeFrame f

/-! ## The encoder -/

/-- A command word from its fields, reserved bits 0 (R61, R72). -/
def mkCmd (op : BitVec 4) (ch : Chan) (code : BitVec 3) (addr data data2 : Word16) (arg : Freq64) : CmdWord :=
  arg ++ data2 ++ data ++ addr ++ 0#5 ++ code ++ 0#1 ++ ch ++ op

/-- The code word of an instruction; "Fields the command does not read are encoded as 0, and reserved bits are 0" (R72). -/
def encode : Instr → CodeWord
  | .regWrite addr data => .cmd (mkCmd 0x1 0 0 addr data 0 0)
  | .regRead addr => .cmd (mkCmd 0x2 0 0 addr 0 0 0)
  | .chResolve base ch => .cmd (mkCmd 0x3 ch 0 base 0 0 0)
  | .chWrite base ch data => .cmd (mkCmd 0x4 ch 0 base data 0 0)
  | .chRead base ch => .cmd (mkCmd 0x5 ch 0 base 0 0 0)
  | .freqEncode freq => .cmd (mkCmd 0x6 0 0 0 0 0 freq)
  | .freqDecode msb lsb => .cmd (mkCmd 0x7 0 0 0 msb lsb 0)
  | .setFreq freq => .cmd (mkCmd 0x8 0 0 0 0 0 freq)
  | .getFreq => .cmd (mkCmd 0x9 0 0 0 0 0 0)
  | .setFclk hz => .cmd (mkCmd 0xA 0 0 0 0 0 hz)
  | .patStop => .cmd (mkCmd 0xB 0 0 0 0 0 0)
  | .patStart => .cmd (mkCmd 0xC 0 0 0 0 0 0)
  | .patUpdate => .cmd (mkCmd 0xD 0 0 0 0 0 0)
  | .patShutdown => .cmd (mkCmd 0xE 0 0 0 0 0 0)
  | .errSet code => .cmd (mkCmd 0xF 0 code 0 0 0 0)
  | .frameWrite a d => .frame (0#1 ++ a ++ d)
  | .frameRead a => .frame (1#1 ++ a ++ 0#16)

/-- The bits of a command word that matter to an instruction: `op`, the reserved bits, and the fields R63 lists for it. All other
fields are "ignored" (R65). For the two frames, which are no commands, all bits. -/
def readMask : Instr → CmdWord
  | .regWrite _ _ => 0x0000000000000000_0000_FFFF_FFFF_F88F#128
  | .regRead _ => 0x0000000000000000_0000_0000_FFFF_F88F#128
  | .chResolve _ _ => 0x0000000000000000_0000_0000_FFFF_F8FF#128
  | .chWrite _ _ _ => 0x0000000000000000_0000_FFFF_FFFF_F8FF#128
  | .chRead _ _ => 0x0000000000000000_0000_0000_FFFF_F8FF#128
  | .freqEncode _ => 0xFFFFFFFFFFFFFFFF_0000_0000_0000_F88F#128
  | .freqDecode _ _ => 0x0000000000000000_FFFF_FFFF_0000_F88F#128
  | .setFreq _ => 0xFFFFFFFFFFFFFFFF_0000_0000_0000_F88F#128
  | .getFreq => 0x0000000000000000_0000_0000_0000_F88F#128
  | .setFclk _ => 0xFFFFFFFFFFFFFFFF_0000_0000_0000_F88F#128
  | .patStop => 0x0000000000000000_0000_0000_0000_F88F#128
  | .patStart => 0x0000000000000000_0000_0000_0000_F88F#128
  | .patUpdate => 0x0000000000000000_0000_0000_0000_F88F#128
  | .patShutdown => 0x0000000000000000_0000_0000_0000_F88F#128
  | .errSet _ => 0x0000000000000000_0000_0000_0000_FF8F#128
  | .frameWrite _ _ => 0xFFFFFFFFFFFFFFFF_FFFF_FFFF_FFFF_FFFF#128
  | .frameRead _ => 0xFFFFFFFFFFFFFFFF_FFFF_FFFF_FFFF_FFFF#128

/-! ## Wire order (R43, R86) -/

/-- The bits of a word in the order they are sent: the most significant first (R86: "`tx[15]` out first and `tx[0]` last"). -/
def bitsMsbFirst {n : Nat} (w : BitVec n) : List Bool :=
  (List.range n).map fun k => w.getLsbD (n - 1 - k)

/-- The word assembled from 16 received bits: "The first bit shifted in becomes `rx[15]` and the last becomes `rx[0]`" (R86). -/
def wordOfBits (bits : List Bool) : Word16 :=
  bits.foldl (fun acc b => (acc <<< 1) ||| (if b then 1#16 else 0#16)) 0#16

/-! ## The table's words -/

/-- Which code word `nbits` bits of the table stand for: the FRAME rows have 32 bits, every other width is a command whose
bits above `nbits` are 0 (log 13). -/
def tableWord (nbits w : Nat) : CodeWord :=
  if nbits = 32 then .frame (BitVec.ofNat 32 w) else .cmd (BitVec.ofNat 128 (w % 2 ^ nbits))

/-- The instruction the decoder reads from a word of spec/opcode_table.json. -/
def decodeTableWord (nbits w : Nat) : Option Instr := (decode (tableWord nbits w)).toOption

end Sys2Proof
end

