-- ==== Sys2Proof/Machine/State.lean ====
section
/-! DEFINITION. The state of DDSC as plain data (10_state.md), the reasons a step can stop, and the state after reset
(70_reset_and_hazards.md R220). -/

namespace Sys2Proof.Machine

/-- The event alphabet of R23. -/
inductive Event where
  /-- `CS(l)`: `cs_n` is driven to level `l` -/
  | cs (l : Level)
  /-- `XCHG(tx, rx)`: one exchange -/
  | xchg (tx rx : Word16)
  /-- `TRIG(l)`: the trigger line is driven to level `l` -/
  | trig (l : Level)
  /-- `WAIT(t)`: at least `t` ms pass -/
  | wait (t : Nat)
  deriving DecidableEq, Repr

/-- DDSC's own contract faults (R31, R192-R196). Taking one is a NEXT state, not a stop of the model. -/
inductive FaultKind where
  | illegalCmd
  | addrFault
  | channelFault
  | resolveFault
  | fclkFault
  deriving DecidableEq, Repr

/-- The outcomes a response can report (60_exceptions.md R198). Code 7 is "reserved, never produced" and has no name here. -/
inductive Status where
  | ok
  | invalidParameter
  | illegalCmd
  | addrFault
  | channelFault
  | resolveFault
  | fclkFault
  deriving DecidableEq, Repr

/-- The response record of R25: "A field that a command's rule does not set is 0", so every field has 0 for its default. -/
structure Response where
  status : Status := .ok
  d0 : Word16 := 0
  d1 : Word16 := 0
  tw : TuningWord := 0
  fqQ24 : BitVec 64 := 0
  deriving DecidableEq, Repr

/-- One action of a command's fixed sequence (R33): what the sequencer does at one position. -/
inductive Act where
  /-- drive `cs_n` -/
  | cs (l : Level)
  /-- one exchange that sends `tx` -/
  | xchg (tx : Word16)
  /-- drive the trigger line -/
  | trig (l : Level)
  /-- wait `t` ms -/
  | wait (t : Nat)
  /-- `EnsureRun`'s test of the word just read (R151) -/
  | checkRun
  deriving DecidableEq, Repr

/-- The sequencer position while a command runs (R33, R36). -/
structure Flight where
  /-- the command accepted; `none` for an illegal word -/
  instr : Option Instr
  /-- the actions still to do -/
  todo : List Act
  /-- the words received in this command, the latest first -/
  rxs : List Word16
  deriving DecidableEq, Repr

/-- What stands at DDSC's ports (the model's own, log 5): the host's next offer, a reset, a command that a reset cuts after
some of its actions (R221), or a frame at the framer's port (log 6). -/
inductive Request where
  | offer (w : CodeWord)
  | reset
  | offerThenReset (c : CmdWord) (ticks : Nat)
  deriving DecidableEq, Repr

/-- The machine's state. The first nine fields are the spec's (R26-R32, R23, R25, R36); `cfg` is the configuration of R8, which
no step changes (log 1); the last three are the model's own, what stands outside DDSC (log 4, log 5). -/
structure State where
  /-- `TRIG`, R26 -/
  trig : Level
  /-- `CS_N`, R28 -/
  csN : Level
  /-- `FCLK`, R29 -/
  fclk : BitVec 32
  /-- `LAST_ERROR`, R30 -/
  lastError : BitVec 3
  /-- `FAULT`, R31 -/
  fault : BitVec 5
  /-- `BUSY`, R32 -/
  busy : Bool
  /-- the event history `H`, R23, oldest first -/
  hist : List Event
  /-- the response last presented, R25; none before the first command, R34 -/
  rsp : Option Response
  /-- the sequencer position, R33, R36; none when idle, R38 -/
  seq : Option Flight
  /-- the configuration record, R8 -/
  cfg : Config
  /-- what the host offers next (model's own) -/
  requests : List Request
  /-- the chip's lined-up answers (model's own) -/
  chipIn : List Word16
  /-- how many words the chip has answered (model's own) -/
  draws : Nat
  deriving DecidableEq, Repr

/-- Why the machine stops with a fault. DDSC's own faults (R191) are no stops: "There is no fatal/unrecoverable condition
modeled at this layer" (R190). -/
inductive Fault where
  /-- Raised by `step` when the word at the framer's port is no frame of R66 (a read with a non-zero dummy): "It never sends a
  read frame with a non-zero second word" (R69), so the spec gives it no effect. SAFE: the hardware never gets there. -/
  | illegalFrame
  deriving DecidableEq, Repr

/-- Why the machine gives no meaning. -/
inductive Refusal where
  /-- Raised by `exec` for an instruction that has no meaning yet. SAFE. No arm of this model raises it. -/
  | notModelled (mnemonic : String)
  /-- Raised by `step` when the configuration breaks a constraint of R8: "A model refuses a configuration that breaks one."
  SAFE. -/
  | badConfiguration
  deriving DecidableEq, Repr

/-- The state R220 sets, under a configuration: `TRIG`, `CS_N`, `FCLK`, `LAST_ERROR`, `FAULT`, `BUSY` and `H` by R220, no
response (R34), an idle sequencer (R38). -/
def State.resetTo (c : Config) : State where
  trig := true
  csN := true
  fclk := BitVec.ofNat 32 c.fclkReset
  lastError := 0
  fault := 0
  busy := false
  hist := [.cs true, .trig true]
  rsp := none
  seq := none
  cfg := c
  requests := []
  chipIn := []
  draws := 0

/-- The machine right after reset, in the default configuration of R8 (log 2, log 3). -/
def State.reset : State := State.resetTo {}

/-- The pattern state of R27. -/
inductive PState where
  | stopped
  | running
  deriving DecidableEq, Repr

/-- The outputs visible to the host at all times (R37). -/
structure Outputs where
  trig : Level
  csN : Level
  lastError : BitVec 3
  fault : BitVec 5
  busy : Bool
  deriving DecidableEq, Repr

end Sys2Proof.Machine
end

