-- ==== Sys2Proof/Machine/Flags.lean ====
section
/-! DEFINITION. The status indications (10_state.md R34): `FAULT` bits (R31), status codes (60_exceptions.md R198), error
codes (R30), the pattern state (R27) and the outputs (R37). -/

namespace Sys2Proof.Machine

/-- `bit(k)`: the `FAULT` bit of a fault kind (R31). -/
def FaultKind.bit : FaultKind → Fin 5
  | .illegalCmd => 0
  | .addrFault => 1
  | .channelFault => 2
  | .resolveFault => 3
  | .fclkFault => 4

/-- `FAULT` with only `bit(k)` set. -/
def FaultKind.mask (k : FaultKind) : BitVec 5 := 1#5 <<< k.bit.val

/-- `STATUS(k)` (R191, R198). -/
def FaultKind.status : FaultKind → Status
  | .illegalCmd => .illegalCmd
  | .addrFault => .addrFault
  | .channelFault => .channelFault
  | .resolveFault => .resolveFault
  | .fclkFault => .fclkFault

/-- The 3-bit code on `rsp.status` (R198). -/
def Status.code : Status → BitVec 3
  | .ok => 0
  | .invalidParameter => 1
  | .illegalCmd => 2
  | .addrFault => 3
  | .channelFault => 4
  | .resolveFault => 5
  | .fclkFault => 6

/-! ## The codes of `LAST_ERROR` (R30, D16) -/

def errNoError : BitVec 3 := 0
def errMemoryRead : BitVec 3 := 1
def errOddAddress : BitVec 3 := 2
def errPeriodTooShort : BitVec 3 := 3
def errOutputStartDelayTooShort : BitVec 3 := 4
def errPatternDelayTooShort : BitVec 3 := 5
def errOutputStartDelayTooLarge : BitVec 3 := 6
def errInvalidParameter : BitVec 3 := 7

/-- `PSTATE`: "`Stopped` when `TRIG` = 1 and `Running` when `TRIG` = 0" (R27). -/
def State.pstate (s : State) : PState := if s.trig then .stopped else .running

/-- R37. -/
def State.outputs (s : State) : Outputs where
  trig := s.trig
  csN := s.csN
  lastError := s.lastError
  fault := s.fault
  busy := s.busy

end Sys2Proof.Machine
end

