-- ==== Sys2Proof/Machine/Operands.lean ====
section
/-! DEFINITION. Reading the operands (30_encoding.md R63), their range checks, and the resolver's arithmetic
(41_resolver.md R100). Arithmetic is on mathematical integers (00_scope.md R10). -/

namespace Sys2Proof.Machine

/-- A frequency operand: `sext_64(arg)`, two's complement (R63). -/
def freqOf (arg : Freq64) : Int := arg.toInt

/-- A clock operand: unsigned (R63). -/
def clockOf (arg : Freq64) : Nat := arg.toNat

/-- A 15-bit parameter address as the 16-bit address of R82 and R83. -/
def addr16 (a : Addr15) : Word16 := a.setWidth 16

/-- The condition of `ADDR_FAULT` (R193). -/
def addrTooHigh (a : Word16) : Bool := decide (addrMax < a.toNat)

/-- The condition of `CHANNEL_FAULT` (R194). -/
def channelBad (ch : Chan) : Bool := decide (ch.toNat < 1 ∨ nCh < ch.toNat)

/-- The condition of `FCLK_FAULT` (R196). -/
def clockBad (arg : Freq64) : Bool := decide (clockOf arg = 0 ∨ fclkMax < clockOf arg)

/-- In range: "exactly when `0 ≤ freq ≤ FCLK`. Both ends are included" (42_codec.md R120). -/
def freqInRange (arg : Freq64) (fclk : BitVec 32) : Bool :=
  decide (0 ≤ freqOf arg ∧ freqOf arg ≤ (fclk.toNat : Int))

/-- The stride of a base: the regime "depends on the **base value only**" (R104). -/
def stride (base : Word16) : Nat := if base.toNat < groupThreshold then strideLo else strideHi

/-- What `Resolve` answers. -/
inductive Resolved where
  | ok (a : Word16)
  | faults (k : FaultKind)
  deriving DecidableEq, Repr

/-- `Resolve(base, ch)` of R100, its checks in that order. -/
def resolve (base : Word16) (ch : Chan) : Resolved :=
  if channelBad ch then .faults .channelFault
  else if addrTooHigh base then .faults .addrFault
  else
    let a : Int := (base.toNat : Int) - (stride base : Int) * ((ch.toNat : Int) - 1)
    if a < 0 then .faults .resolveFault else .ok (BitVec.ofInt 16 a)

end Sys2Proof.Machine
end

