-- ==== Sys2Proof/Machine/Ops.lean ====
section
/-! DEFINITION. The named operations every meaning is made of: the event history, the two lines, the exchange port, the framed
transaction and the two register accesses (40_framer.md R81-R83), acceptance and response (10_state.md R24, R25), taking a
fault (60_exceptions.md R191) and the InvalidParameter outcome (R197), and reset (70_reset_and_hazards.md R220). There is no
return from a fault: "There is no trap-return command, because a fault transfers control nowhere" (R201). -/

namespace Sys2Proof.Machine

/-! ## Events and lines (R10, R23) -/

/-- `emit E` (R10). -/
def State.emit (e : Event) (s : State) : State :=
  { s with hist := s.hist ++ [e] }

/-- `Wait(t)` is `emit WAIT(t)` (R10). -/
def State.waitMs (t : Nat) (s : State) : State := s.emit (.wait t)

/-- `CS_N <- l; emit CS(l)` (R81). -/
def State.setCs (l : Level) (s : State) : State :=
  { s with csN := l, hist := s.hist ++ [.cs l] }

/-- `SetTrig(l)` is `TRIG <- l; emit TRIG(l)` (R10); it "always emits its event, even when the level does not change" (R152). -/
def State.setTrig (l : Level) (s : State) : State :=
  { s with trig := l, hist := s.hist ++ [.trig l] }

/-! ## The exchange port (R22, R45) -/

/-- The `k`-th word the chip will answer from here: a lined-up answer, else the free value (log 4). -/
def State.rx (s : State) (k : Nat) : Word16 :=
  (s.chipIn[k]?).getD (Config.chipDraw (s.draws + k))

/-- The chip answers one word. -/
def State.takeRx (s : State) : State :=
  { s with chipIn := s.chipIn.drop 1, draws := s.draws + 1 }

/-- `exchange16(tx) -> rx` with its event (R22, R81). -/
def State.exchange (tx : Word16) (s : State) : Word16 × State :=
  (s.rx 0, s.takeRx.emit (.xchg tx (s.rx 0)))

/-! ## Transactions (R81-R83) -/

/-- `Txn(w1, w2)` (R81): both received words, and the state after the settle wait. -/
def State.txn (w1 w2 : Word16) (s : State) : (Word16 × Word16) × State :=
  let s := s.setCs false
  let (r1, s) := s.exchange w1
  let (r2, s) := s.exchange w2
  let s := s.setCs true
  ((r1, r2), s.waitMs s.cfg.tSettle)

/-- `MemWrite(a, 2, d)` (R82): the echo and the state. Precondition: `a` ≤ `ADDR_MAX`. -/
def State.memWrite (a d : Word16) (s : State) : Word16 × State :=
  let ((_, r2), s) := s.txn a d
  (r2, s)

/-- `MemRead(a, 2)` (R83): the register word and the state. Same precondition. -/
def State.memRead (a : Word16) (s : State) : Word16 × State :=
  let ((_, r2), s) := s.txn (a ||| 0x8000#16) 0x0000#16
  (r2, s)

/-! ## Commands: acceptance, response, faults -/

/-- Acceptance of a command: "On acceptance it sets `BUSY` <- 1" (R24); the previous response goes (R34, log 8). -/
def State.accept (s : State) : State :=
  { s with busy := true, rsp := none }

/-- "It then presents the response (rule R25) and sets `BUSY` <- 0" (R24). -/
def State.respond (r : Response) (s : State) : State :=
  { s with rsp := some r, busy := false }

/-- TAKING A FAULT: `raise Fault(k)` of R191. Its sticky bit is set, the status is `STATUS(k)`, every other response field is 0,
the command ends. Nothing else is saved and control goes nowhere. -/
def State.raiseFault (k : FaultKind) (s : State) : State :=
  State.respond { status := k.status } { s with fault := s.fault ||| k.mask }

/-- `LAST_ERROR <- code` (R30, R180, R197). -/
def State.recordError (code : BitVec 3) (s : State) : State :=
  { s with lastError := code }

/-- The InvalidParameter outcome (R197): `LAST_ERROR <- 7`, the status, no event, no `FAULT` bit. -/
def State.invalidParameter (s : State) : State :=
  (s.recordError errInvalidParameter).respond { status := .invalidParameter }

/-- `FCLK <- hz` (R128). -/
def State.writeFclk (hz : BitVec 32) (s : State) : State :=
  { s with fclk := hz }

/-! ## Reset (R220-R222) -/

/-- DDSC's reset, at any time (R220, R221). The configuration, the host's offers and the chip are not DDSC's state and stay:
"DDSC's reset does not reset the chip" (R222). -/
def State.applyReset (s : State) : State :=
  { State.resetTo s.cfg with requests := s.requests, chipIn := s.chipIn, draws := s.draws }

end Sys2Proof.Machine
end

