-- ==== Sys2Proof/Machine/Codec.lean ====
section
/-! DEFINITION. The DDS frequency codec: its functions (42_codec.md R121-R123) and its commands (R124-R128). -/

namespace Sys2Proof.Machine

/-- `Encode(freq)` of R121 on integers: `(freq * 2^25 + FCLK) // (2 * FCLK)`, rounding to nearest with ties up. -/
def encodeNat (freq fclk : Nat) : Nat := (freq * 2 ^ (twFracBits + 1) + fclk) / (2 * fclk)

/-- `Encode(freq)` in its 48-bit container (R121); defined for an in-range `freq`. -/
def encodeTw (freq : Freq64) (fclk : BitVec 32) : TuningWord :=
  BitVec.ofNat 48 (encodeNat (freqOf freq).toNat fclk.toNat)

/-- `Split(tw)` of R122: `tw[23:8]`, and `tw[7:0] ‖ 0x00`. -/
def splitTw (tw : TuningWord) : Word16 × Word16 :=
  ((tw >>> 8).setWidth 16, ((tw &&& 0xFF#48) <<< 8).setWidth 16)

/-- `Decode(msb, lsb)` of R123: both words zero-extended. -/
def decodeTw (msb lsb : Word16) : TuningWord :=
  (msb.setWidth 48 <<< 8) ||| (lsb.setWidth 48 >>> 8)

/-- The exact product `tw * FCLK`, a Q24 number of hertz (R123, R11). -/
def fqQ24 (tw : TuningWord) (fclk : BitVec 32) : BitVec 64 :=
  BitVec.ofNat 64 (tw.toNat * fclk.toNat)

/-- The whole-hertz part of a Q24 frequency: "`fq_q24 >> 24`, which is the floor" (R123). -/
def wholeHz (q : BitVec 64) : Nat := q.toNat / 2 ^ twFracBits

/-- The response of an encoding: the two register values and the tuning word (R124, R126). -/
def encodedRsp (tw : TuningWord) : Response :=
  { d0 := (splitTw tw).1, d1 := (splitTw tw).2, tw := tw }

/-- `FREQ_ENCODE freq` (R124). -/
def execFreqEncode (freq : Freq64) (s : State) : Host.Outcome State Fault Refusal :=
  .next
    (if freqInRange freq s.fclk then s.accept.respond (encodedRsp (encodeTw freq s.fclk))
    else s.accept.invalidParameter)

/-- `FREQ_DECODE msb, lsb` (R125). -/
def execFreqDecode (msb lsb : Word16) (s : State) : Host.Outcome State Fault Refusal :=
  .next (s.accept.respond { tw := decodeTw msb lsb, fqQ24 := fqQ24 (decodeTw msb lsb) s.fclk })

/-- `SET_FREQ freq` (R126): MSB first, the echoes dropped. -/
def execSetFreq (freq : Freq64) (s : State) : Host.Outcome State Fault Refusal :=
  .next
    (if freqInRange freq s.fclk then
      let tw := encodeTw freq s.fclk
      let (m, l) := splitTw tw
      let (_, t) := s.accept.memWrite (addr16 s.cfg.aDdsTwMsb) m
      let (_, t) := t.memWrite (addr16 s.cfg.aDdsTwLsb) l
      t.respond (encodedRsp tw)
    else s.accept.invalidParameter)

/-- `GET_FREQ` (R127): MSB first; decoded with the current `FCLK`. -/
def execGetFreq (s : State) : Host.Outcome State Fault Refusal :=
  .next
    (let (m, t) := s.accept.memRead (addr16 s.cfg.aDdsTwMsb)
    let (l, t) := t.memRead (addr16 s.cfg.aDdsTwLsb)
    t.respond { d0 := m, d1 := l, tw := decodeTw m l, fqQ24 := fqQ24 (decodeTw m l) s.fclk })

/-- `SET_FCLK hz` (R128). -/
def execSetFclk (hz : Freq64) (s : State) : Host.Outcome State Fault Refusal :=
  .next
    (if clockBad hz then s.accept.raiseFault .fclkFault
    else (s.accept.writeFclk (BitVec.ofNat 32 (clockOf hz))).respond {})

end Sys2Proof.Machine
end

