-- ==== Sys2Proof/Machine/ErrorPort.lean ====
section
/-! DEFINITION. The error-code port (44_error_port.md R180). -/

namespace Sys2Proof.Machine

/-- `ERR_SET code` (R180). -/
def execErrSet (code : BitVec 3) (s : State) : Host.Outcome State Fault Refusal :=
  .next ((s.accept.recordError code).respond {})

end Sys2Proof.Machine
end

