-- ==== Sys2Proof/Machine/Framer.lean ====
section
/-! DEFINITION. The serial register-access framer's commands (40_framer.md R84, R85) and the two bus frames as instructions of
the framer (R66, R82, R83; log 6). -/

namespace Sys2Proof.Machine

/-- A checked register write that answers the echo in `d0`: the body of R84. -/
def State.checkedWrite (addr data : Word16) (s : State) : State :=
  if addrTooHigh addr then s.raiseFault .addrFault
  else
    let (e, s) := s.memWrite addr data
    s.respond { d0 := e }

/-- A checked register read that answers the word in `d0`: the body of R85. -/
def State.checkedRead (addr : Word16) (s : State) : State :=
  if addrTooHigh addr then s.raiseFault .addrFault
  else
    let (v, s) := s.memRead addr
    s.respond { d0 := v }

/-- `REG_WRITE addr, data` (R84). -/
def execRegWrite (addr data : Word16) (s : State) : Host.Outcome State Fault Refusal :=
  .next (s.accept.checkedWrite addr data)

/-- `REG_READ addr` (R85). -/
def execRegRead (addr : Word16) (s : State) : Host.Outcome State Fault Refusal :=
  .next (s.accept.checkedRead addr)

/-- The frame `0 a d`: `MemWrite(a, 2, d)` (R66, R82). -/
def execFrameWrite (a : Addr15) (d : Word16) (s : State) : Host.Outcome State Fault Refusal :=
  .next (s.accept.checkedWrite (addr16 a) d)

/-- The frame `1 a 0x0000`: `MemRead(a, 2)` (R66, R83). -/
def execFrameRead (a : Addr15) (s : State) : Host.Outcome State Fault Refusal :=
  .next (s.accept.checkedRead (addr16 a))

end Sys2Proof.Machine
end

