-- ==== Sys2Proof/Machine/Pattern.lean ====
section
/-! DEFINITION. The pattern state machine: its sub-sequences (43_pattern.md R151, R152) and its commands (R153-R156). -/

namespace Sys2Proof.Machine

/-- The run bit of a pattern-status word: `s[RUN_BIT]` (R151). -/
def runBitSet (c : Config) (w : Word16) : Bool := w.getLsbD c.runBit.val

/-- `MemWrite(A_PAT_STATUS, 2, v)`, the echo discarded (R151, R155, R156). -/
def State.writePatStatus (v : Word16) (s : State) : State :=
  (s.memWrite (addr16 s.cfg.aPatStatus) v).2

/-- `EnsureRun()` (R151): a read, and where the bit reads as clear a whole-register write and the wait `T_RUN`. -/
def State.ensureRun (s : State) : State :=
  let (w, t) := s.memRead (addr16 s.cfg.aPatStatus)
  if runBitSet s.cfg w then t
  else (t.writePatStatus s.cfg.runValue).waitMs s.cfg.tRun

/-- `StartSeq()` (R152). -/
def State.startSeq (s : State) : State :=
  (if s.cfg.runVariant then s.ensureRun else s).setTrig false

/-- `StopSeq()` (R152). -/
def State.stopSeq (s : State) : State := s.setTrig true

/-- The `case UPD_RUN_MODE` of R155. -/
def State.updateRun (s : State) : State :=
  match s.cfg.updRunMode with
  | .none => s
  | .reassert => s.writePatStatus s.cfg.runValue
  | .recheck => s.ensureRun

/-- The first part of an update (R155): stop, wait `T_UPD1`, commit the shadow registers. -/
def State.commitSeq (s : State) : State :=
  ((s.stopSeq.waitMs s.cfg.tUpd1).memWrite (addr16 s.cfg.aRamUpdate) s.cfg.vRamUpdate).2

/-- `PAT_STOP` (R153). -/
def execPatStop (s : State) : Host.Outcome State Fault Refusal :=
  .next (s.accept.stopSeq.respond {})

/-- `PAT_START` (R154). -/
def execPatStart (s : State) : Host.Outcome State Fault Refusal :=
  .next (s.accept.startSeq.respond {})

/-- `PAT_UPDATE` (R155). -/
def execPatUpdate (s : State) : Host.Outcome State Fault Refusal :=
  .next ((s.accept.commitSeq.updateRun.waitMs s.cfg.tUpd2).startSeq.respond {})

/-- `PAT_SHUTDOWN` (R156). -/
def execPatShutdown (s : State) : Host.Outcome State Fault Refusal :=
  .next
    ((match s.cfg.shutdownMode with
      | .triggerOnly => s.accept.stopSeq
      | .clearRun => s.accept.stopSeq.writePatStatus 0x0000#16).respond {})

end Sys2Proof.Machine
end

