-- ==== Sys2Proof/Machine/Resolver.lean ====
section
/-! DEFINITION. The channel address resolver's commands (41_resolver.md R101-R103) over `resolve` (R100). -/

namespace Sys2Proof.Machine

/-- `a <- Resolve(base, ch)`, then `k a`; a fault of `Resolve` ends the command (R100, R191). -/
def State.withResolved (base : Word16) (ch : Chan) (s : State) (k : Word16 → State) : State :=
  match resolve base ch with
  | .ok a => k a
  | .faults f => s.raiseFault f

/-- `CH_RESOLVE base, ch` (R101). -/
def execChResolve (base : Word16) (ch : Chan) (s : State) : Host.Outcome State Fault Refusal :=
  .next (s.accept.withResolved base ch fun a => s.accept.respond { d0 := a })

/-- `CH_WRITE base, ch, data` (R102). -/
def execChWrite (base : Word16) (ch : Chan) (data : Word16) (s : State) : Host.Outcome State Fault Refusal :=
  .next (s.accept.withResolved base ch fun a =>
    let (e, t) := s.accept.memWrite a data
    t.respond { d0 := a, d1 := e })

/-- `CH_READ base, ch` (R103). -/
def execChRead (base : Word16) (ch : Chan) (s : State) : Host.Outcome State Fault Refusal :=
  .next (s.accept.withResolved base ch fun a =>
    let (v, t) := s.accept.memRead a
    t.respond { d0 := a, d1 := v })

end Sys2Proof.Machine
end

