-- ==== Sys2Proof/Machine/Dispatch.lean ====
section
/-! DEFINITION. One arm per instruction. -/

namespace Sys2Proof.Machine

open Sys2Proof

/- What an instruction does once it is accepted. -/
def exec (i : Instr) (s : State) : Host.Outcome State Fault Refusal :=
  match i with
  | .regWrite addr data => Sys2Proof.Machine.execRegWrite addr data s
  | .regRead addr => Sys2Proof.Machine.execRegRead addr s
  | .chResolve base ch => Sys2Proof.Machine.execChResolve base ch s
  | .chWrite base ch data => Sys2Proof.Machine.execChWrite base ch data s
  | .chRead base ch => Sys2Proof.Machine.execChRead base ch s
  | .freqEncode freq => Sys2Proof.Machine.execFreqEncode freq s
  | .freqDecode msb lsb => Sys2Proof.Machine.execFreqDecode msb lsb s
  | .setFreq freq => Sys2Proof.Machine.execSetFreq freq s
  | .getFreq => Sys2Proof.Machine.execGetFreq s
  | .setFclk hz => Sys2Proof.Machine.execSetFclk hz s
  | .patStop => Sys2Proof.Machine.execPatStop s
  | .patStart => Sys2Proof.Machine.execPatStart s
  | .patUpdate => Sys2Proof.Machine.execPatUpdate s
  | .patShutdown => Sys2Proof.Machine.execPatShutdown s
  | .errSet code => Sys2Proof.Machine.execErrSet code s
  | .frameWrite a d => Sys2Proof.Machine.execFrameWrite a d s
  | .frameRead a => Sys2Proof.Machine.execFrameRead a s

end Sys2Proof.Machine
end

