-- ==== Sys2Proof/Machine/Sequencer.lean ====
section
/-! DEFINITION. The sequencer one action at a time (10_state.md R24, R33, R36; log 10): the fixed sequence of actions of a
command, the outcome it ends in by the priority of 60_exceptions.md R199, and the tick that does one action. Between ticks
`BUSY`, `CS_N` and the position are as the host and the chip would find them; only a reset can cut the sequence (R221). -/

namespace Sys2Proof.Machine

/-- An outcome other than OK (R190). -/
inductive Stop where
  | fault (k : FaultKind)
  | invalidParameter
  deriving DecidableEq, Repr

/-- The status a stop reports (R198). -/
def Stop.status : Stop → Status
  | .fault k => k.status
  | .invalidParameter => .invalidParameter

/-- The `FAULT` bits a stop sets: its own for a fault, none for InvalidParameter (R191, R197). -/
def Stop.mask : Stop → BitVec 5
  | .fault k => k.mask
  | .invalidParameter => 0

/-- The first condition of R199 that a command meets; `none` when it is OK. The argument `none` is an illegal word (R192). -/
def verdict (i : Option Instr) (s : State) : Option Stop :=
  match i with
  | none => some (.fault .illegalCmd)
  | some (.regWrite addr _) => if addrTooHigh addr then some (.fault .addrFault) else none
  | some (.regRead addr) => if addrTooHigh addr then some (.fault .addrFault) else none
  | some (.chResolve base ch) => channelVerdict base ch
  | some (.chWrite base ch _) => channelVerdict base ch
  | some (.chRead base ch) => channelVerdict base ch
  | some (.freqEncode freq) => if freqInRange freq s.fclk then none else some .invalidParameter
  | some (.freqDecode _ _) => none
  | some (.setFreq freq) => if freqInRange freq s.fclk then none else some .invalidParameter
  | some .getFreq => none
  | some (.setFclk hz) => if clockBad hz then some (.fault .fclkFault) else none
  | some .patStop => none
  | some .patStart => none
  | some .patUpdate => none
  | some .patShutdown => none
  | some (.errSet _) => none
  | some (.frameWrite a _) => if addrTooHigh (addr16 a) then some (.fault .addrFault) else none
  | some (.frameRead a) => if addrTooHigh (addr16 a) then some (.fault .addrFault) else none
where
  /-- The channel commands' conditions: `CHANNEL_FAULT`, `ADDR_FAULT`, `RESOLVE_FAULT` (R199). -/
  channelVerdict (base : Word16) (ch : Chan) : Option Stop :=
    match resolve base ch with
    | .ok _ => none
    | .faults k => some (.fault k)

/-- The register a channel command reaches (R100); 0 where it faults, which no caller uses. -/
def resolvedAddr (base : Word16) (ch : Chan) : Word16 :=
  match resolve base ch with
  | .ok a => a
  | .faults _ => 0

/-- The actions of `Txn(w1, w2)` (R81). -/
def txnActs (c : Config) (w1 w2 : Word16) : List Act :=
  [.cs false, .xchg w1, .xchg w2, .cs true, .wait c.tSettle]

/-- The actions of `MemWrite(a, 2, d)` (R82). -/
def writeActs (c : Config) (a d : Word16) : List Act := txnActs c a d

/-- The actions of `MemRead(a, 2)` (R83). -/
def readActs (c : Config) (a : Word16) : List Act := txnActs c (a ||| 0x8000#16) 0x0000#16

/-- The actions of `EnsureRun()` up to its test (R151). -/
def ensureActs (c : Config) : List Act := readActs c (addr16 c.aPatStatus) ++ [.checkRun]

/-- What `EnsureRun()` does where the run bit reads as clear (R151). -/
def setRunActs (c : Config) : List Act := writeActs c (addr16 c.aPatStatus) c.runValue ++ [.wait c.tRun]

/-- The actions of `StartSeq()` (R152). -/
def startActs (c : Config) : List Act := (if c.runVariant then ensureActs c else []) ++ [.trig false]

/-- The actions of the `case UPD_RUN_MODE` (R155). -/
def updateRunActs (c : Config) : List Act :=
  match c.updRunMode with
  | .none => []
  | .reassert => writeActs c (addr16 c.aPatStatus) c.runValue
  | .recheck => ensureActs c

/-- The sequence of actions of a command that is OK. -/
def commandActs (i : Instr) (s : State) : List Act :=
  match i with
  | .regWrite addr data => writeActs s.cfg addr data
  | .regRead addr => readActs s.cfg addr
  | .chResolve _ _ => []
  | .chWrite base ch data => writeActs s.cfg (resolvedAddr base ch) data
  | .chRead base ch => readActs s.cfg (resolvedAddr base ch)
  | .freqEncode _ => []
  | .freqDecode _ _ => []
  | .setFreq freq =>
    writeActs s.cfg (addr16 s.cfg.aDdsTwMsb) (splitTw (encodeTw freq s.fclk)).1 ++
      writeActs s.cfg (addr16 s.cfg.aDdsTwLsb) (splitTw (encodeTw freq s.fclk)).2
  | .getFreq => readActs s.cfg (addr16 s.cfg.aDdsTwMsb) ++ readActs s.cfg (addr16 s.cfg.aDdsTwLsb)
  | .setFclk _ => []
  | .patStop => [.trig true]
  | .patStart => startActs s.cfg
  | .patUpdate =>
    [.trig true, .wait s.cfg.tUpd1] ++ writeActs s.cfg (addr16 s.cfg.aRamUpdate) s.cfg.vRamUpdate ++
      updateRunActs s.cfg ++ [.wait s.cfg.tUpd2] ++ startActs s.cfg
  | .patShutdown =>
    [.trig true] ++
      (match s.cfg.shutdownMode with
      | .triggerOnly => []
      | .clearRun => writeActs s.cfg (addr16 s.cfg.aPatStatus) 0x0000#16)
  | .errSet _ => []
  | .frameWrite a d => writeActs s.cfg (addr16 a) d
  | .frameRead a => readActs s.cfg (addr16 a)

/-- The sequence of actions of any command: none where it does not end OK ("Checked before acting", R191; R197). -/
def plan (i : Option Instr) (s : State) : List Act :=
  match verdict i s, i with
  | none, some i => commandActs i s
  | _, _ => []

/-- The word received `k` words before the latest one of a command. -/
def rxAgo (rxs : List Word16) (k : Nat) : Word16 := (rxs[k]?).getD 0

/-- How a command that is OK ends: its register write and its response, from the words it received (`rxs`, the latest first). -/
def complete (i : Instr) (rxs : List Word16) (s : State) : State :=
  match i with
  | .regWrite _ _ => s.respond { d0 := rxAgo rxs 0 }
  | .regRead _ => s.respond { d0 := rxAgo rxs 0 }
  | .chResolve base ch => s.respond { d0 := resolvedAddr base ch }
  | .chWrite base ch _ => s.respond { d0 := resolvedAddr base ch, d1 := rxAgo rxs 0 }
  | .chRead base ch => s.respond { d0 := resolvedAddr base ch, d1 := rxAgo rxs 0 }
  | .freqEncode freq => s.respond (encodedRsp (encodeTw freq s.fclk))
  | .freqDecode msb lsb => s.respond { tw := decodeTw msb lsb, fqQ24 := fqQ24 (decodeTw msb lsb) s.fclk }
  | .setFreq freq => s.respond (encodedRsp (encodeTw freq s.fclk))
  | .getFreq =>
    let tw := decodeTw (rxAgo rxs 2) (rxAgo rxs 0)
    s.respond { d0 := rxAgo rxs 2, d1 := rxAgo rxs 0, tw := tw, fqQ24 := fqQ24 tw s.fclk }
  | .setFclk hz => (s.writeFclk (BitVec.ofNat 32 (clockOf hz))).respond {}
  | .patStop => s.respond {}
  | .patStart => s.respond {}
  | .patUpdate => s.respond {}
  | .patShutdown => s.respond {}
  | .errSet code => (s.recordError code).respond {}
  | .frameWrite _ _ => s.respond { d0 := rxAgo rxs 0 }
  | .frameRead _ => s.respond { d0 := rxAgo rxs 0 }

/-- The end of any command (R24, R190, R191, R197). -/
def finish (fl : Flight) (s : State) : State :=
  match verdict fl.instr s, fl.instr with
  | some (.fault k), _ => s.raiseFault k
  | some .invalidParameter, _ => s.invalidParameter
  | none, some i => complete i fl.rxs s
  | none, none => s.raiseFault .illegalCmd

/-- The position after an action. -/
def State.setSeq (fl : Option Flight) (s : State) : State := { s with seq := fl }

/-- One action, at a position `fl` that no longer holds it. -/
def State.perform (a : Act) (fl : Flight) (s : State) : State :=
  match a with
  | .cs l => (s.setCs l).setSeq (some fl)
  | .xchg tx =>
    let (r, t) := s.exchange tx
    t.setSeq (some { fl with rxs := r :: fl.rxs })
  | .trig l => (s.setTrig l).setSeq (some fl)
  | .wait t => (s.waitMs t).setSeq (some fl)
  | .checkRun =>
    if runBitSet s.cfg (rxAgo fl.rxs 0) then s.setSeq (some fl)
    else s.setSeq (some { fl with todo := setRunActs s.cfg ++ fl.todo })

/-- One tick: the next action of the command under way, or its end; nothing when idle (R209). -/
def tick (s : State) : State :=
  match s.seq with
  | none => s
  | some fl =>
    match fl.todo with
    | [] => (finish fl s).setSeq none
    | a :: rest => s.perform a { fl with todo := rest }

/-- `n` ticks. -/
def ticks : Nat → State → State
  | 0, s => s
  | n + 1, s => ticks n (tick s)

/-- A bound on the ticks an action can lead to: a test of the run bit can add the six actions of `setRunActs`. -/
def Act.cost : Act → Nat
  | .checkRun => 7
  | .cs _ => 1
  | .xchg _ => 1
  | .trig _ => 1
  | .wait _ => 1

/-- A bound on the ticks to a command's end. -/
def Flight.cost (fl : Flight) : Nat := (fl.todo.map Act.cost).sum + 1

/-- The command under way runs to its end (R24: it "runs the command's rule to the end"); nothing when idle. -/
def State.drain (s : State) : State :=
  match s.seq with
  | none => s
  | some fl => ticks fl.cost s

/-- Acceptance, for the machine that ticks: `BUSY` <- 1 and the command's position at its start (R24). -/
def State.launch (i : Option Instr) (s : State) : State :=
  s.accept.setSeq (some { instr := i, todo := plan i s, rxs := [] })

end Sys2Proof.Machine
end

