-- ==== Sys2Proof/Machine/Accept.lean ====
section
/-! DEFINITION. What DDSC does with what stands at its ports (10_state.md R22, R24; 70_reset_and_hazards.md R220, R221): a
reset at any time, a command only while `BUSY` = 0, nothing when nothing is offered (60_exceptions.md R209). -/

namespace Sys2Proof.Machine

/-- `ILLEGAL_CMD` (R64, R192): "It has no other effect: no event, and no state change except the `FAULT` bit". -/
def execIllegal (s : State) : State := s.accept.raiseFault .illegalCmd

/-- Running a code word: its instruction, `ILLEGAL_CMD` for an illegal command word (R192), a stop for a word at the framer's
port that is no frame (R69, log 7). -/
def runWord (w : CodeWord) (s : State) : Host.Outcome State Fault Refusal :=
  match decode w, w with
  | .instr i, _ => exec i s
  | .rejected _, .cmd _ => .next (execIllegal s)
  | .rejected _, .frame _ => .fault .illegalFrame

/-- The offers that are left. -/
def State.withRequests (rs : List Request) (s : State) : State := { s with requests := rs }

/-- A command that a reset cuts after `k` ticks (R221): "no response is given", "the remaining events are not emitted", "the
state becomes that of rule R220". -/
def runCut (c : CmdWord) (k : Nat) (s : State) : State :=
  (ticks k (s.launch (decode (.cmd c)).toOption)).applyReset

/-- One service of the ports. A command offered while `BUSY` = 1 is "not accepted: the host is held and the command is neither
lost nor queued inside DDSC" (R24): the command under way runs to its end and the offer stands. -/
def serve (s : State) : Host.Outcome State Fault Refusal :=
  match s.requests, s.busy with
  | .reset :: rest, _ => .next (s.withRequests rest).applyReset
  | _, true => .next s.drain
  | [], false => .next s
  | .offer w :: rest, false => runWord w (s.withRequests rest)
  | .offerThenReset c k :: rest, false => .next (runCut c k (s.withRequests rest))

/-- `w` is offered next, and DDSC is free to accept it. -/
def State.offerNext (w : CodeWord) (s : State) : State :=
  { s with requests := .offer w :: s.requests, busy := false, seq := none }

end Sys2Proof.Machine
end

