-- ==== Sys2Proof/Machine/Step.lean ====
section
/-! DEFINITION. One step: "Its step is a whole command, from acceptance to response" (00_scope.md R9). -/

namespace Sys2Proof.Machine

/-- One step of DDSC. "A model refuses a configuration that breaks one" of the constraints of R8. -/
def step (s : State) : Host.Outcome State Fault Refusal :=
  if s.cfg.wf then serve s else .refused .badConfiguration

/-- `s` with a word of spec/opcode_table.json offered next (log 5, log 13). -/
def State.withFetchWord (s : State) (nbits w : Nat) : State := s.offerNext (tableWord nbits w)

end Sys2Proof.Machine
end

