-- ==== Sys2Proof/Machine/Pseudo.lean ====
section
/-! DEFINITION. The pseudo-commands of 30_encoding.md R73: the source's channel-property getters and setters, each of which
expands to one command. -/

namespace Sys2Proof.Machine

/-- The channel properties of R42. -/
inductive Property where
  | offset
  | gain
  | phase
  | startDelay
  deriving DecidableEq, Repr

/-- R73's left column. -/
inductive Pseudo where
  | set (p : Property) (ch : Chan) (v : Word16)
  | get (p : Property) (ch : Chan)
  deriving DecidableEq, Repr

/-- The channel-1 base address of a property (R42). -/
def Property.base (c : Config) : Property → Word16
  | .offset => bOffset
  | .gain => addr16 c.bGain
  | .phase => addr16 c.bPhase
  | .startDelay => bStartDly

/-- R73's right column. -/
def Pseudo.expand (c : Config) : Pseudo → Instr
  | .set p ch v => .chWrite (p.base c) ch v
  | .get p ch => .chRead (p.base c) ch

end Sys2Proof.Machine
end

