-- ==== Sys2Proof/Machine/Trace.lean ====
section
/-! DEFINITION. Reading the event history (10_state.md R23): the transactions on the bus and what a chip could rely on. None of
this is state of DDSC (R36, D32); the environment rules of 20_memory.md R46-R48 and the hazards of 70_reset_and_hazards.md R224
are stated through it. -/

namespace Sys2Proof.Machine

/-! ## The events of the sub-sequences -/

/-- The events of `Txn(w1, w2)` with the answers `r1`, `r2` (R81). -/
def txnEvents (c : Config) (w1 w2 r1 r2 : Word16) : List Event :=
  [.cs false, .xchg w1 r1, .xchg w2 r2, .cs true, .wait c.tSettle]

/-- The events of `MemWrite(a, 2, d)` (R82). -/
def writeEvents (c : Config) (a d r1 r2 : Word16) : List Event := txnEvents c a d r1 r2

/-- The events of `MemRead(a, 2)` (R83). -/
def readEvents (c : Config) (a r1 r2 : Word16) : List Event := txnEvents c (a ||| 0x8000#16) 0x0000#16 r1 r2

/-- The events of `EnsureRun()` (R151) when the chip's next answers are those from the `k`-th on, and how many of them it
takes. -/
def ensureEvents (s : State) (k : Nat) : List Event × Nat :=
  let rd := readEvents s.cfg (addr16 s.cfg.aPatStatus) (s.rx k) (s.rx (k + 1))
  if runBitSet s.cfg (s.rx (k + 1)) then (rd, 2)
  else
    (rd ++ writeEvents s.cfg (addr16 s.cfg.aPatStatus) s.cfg.runValue (s.rx (k + 2)) (s.rx (k + 3)) ++ [.wait s.cfg.tRun], 4)

/-- The events of `StartSeq()` (R152), and how many answers it takes. -/
def startEvents (s : State) (k : Nat) : List Event × Nat :=
  if s.cfg.runVariant then ((ensureEvents s k).1 ++ [.trig false], (ensureEvents s k).2) else ([.trig false], 0)

/-- The events of the `case UPD_RUN_MODE` (R155), and how many answers it takes. -/
def updateRunEvents (s : State) (k : Nat) : List Event × Nat :=
  match s.cfg.updRunMode with
  | .none => ([], 0)
  | .reassert => (writeEvents s.cfg (addr16 s.cfg.aPatStatus) s.cfg.runValue (s.rx k) (s.rx (k + 1)), 2)
  | .recheck => ensureEvents s k

/-- The events of `PAT_UPDATE` up to and with the shadow commit (R155). -/
def commitEvents (s : State) : List Event :=
  [.trig true, .wait s.cfg.tUpd1] ++
    writeEvents s.cfg (addr16 s.cfg.aRamUpdate) s.cfg.vRamUpdate (s.rx 0) (s.rx 1)

/-- The events of `PAT_UPDATE` (R155), and how many answers it takes. -/
def updateEvents (s : State) : List Event × Nat :=
  let mid := updateRunEvents s 2
  let fin := startEvents s (2 + mid.2)
  (commitEvents s ++ mid.1 ++ [.wait s.cfg.tUpd2] ++ fin.1, 2 + mid.2 + fin.2)

/-- The words a history received, in order (R22, R45). -/
def receivedWords (h : List Event) : List Word16 :=
  h.filterMap fun e =>
    match e with
    | .xchg _ rx => some rx
    | .cs _ => none
    | .trig _ => none
    | .wait _ => none

/-- An event without what the chip answered. -/
def Event.forgetRx : Event → Event
  | .xchg tx _ => .xchg tx 0
  | .cs l => .cs l
  | .trig l => .trig l
  | .wait t => .wait t

/-! ## The bus protocol of R50, R66, R68, R69, R81, R89, R225 as a monitor -/

/-- Where a history stands inside a transaction. -/
inductive BusPhase where
  /-- chip select high -/
  | idle
  /-- chip select low, no exchange yet -/
  | selected
  /-- the address word is sent; `read` is its bit 15 -/
  | addressed (read : Bool)
  /-- both words are sent -/
  | exchanged
  deriving DecidableEq, Repr

/-- The monitor's state: the phase, and the ms of settle time still owed before the next `CS(0)` (R48, R225). -/
structure Monitor where
  phase : BusPhase
  owed : Nat
  deriving DecidableEq, Repr

/-- The monitor at the start of a history. -/
def Monitor.start : Monitor := { phase := .idle, owed := 0 }

/-- One event, `none` where it breaks the protocol: two exchanges inside one chip-select period with nothing between (R50, R81),
an address ≤ `ADDR_MAX` (R69, R89), a zero dummy after a read address (R68), at least `tSettle` ms after a transaction (R225). -/
def Monitor.next (tSettle : Nat) (m : Monitor) (e : Event) : Option Monitor :=
  match m.phase with
  | .idle =>
    match e with
    | .cs l => if l then some m else if m.owed = 0 then some { phase := .selected, owed := 0 } else none
    | .xchg _ _ => none
    | .trig _ => some m
    | .wait t => some { m with owed := m.owed - t }
  | .selected =>
    match e with
    | .cs _ => none
    | .xchg tx _ =>
      if (tx &&& 0x7FFF#16).toNat ≤ addrMax then some { phase := .addressed (tx.getLsbD 15), owed := 0 } else none
    | .trig _ => none
    | .wait _ => none
  | .addressed rd =>
    match e with
    | .cs _ => none
    | .xchg tx _ => if rd = true ∧ tx ≠ 0 then none else some { phase := .exchanged, owed := 0 }
    | .trig _ => none
    | .wait _ => none
  | .exchanged =>
    match e with
    | .cs l => if l then some { phase := .idle, owed := tSettle } else none
    | .xchg _ _ => none
    | .trig _ => none
    | .wait _ => none

/-- The monitor after a history, from `m`; `none` once the protocol is broken. -/
def Monitor.run (tSettle : Nat) : Option Monitor → List Event → Option Monitor
  | m, [] => m
  | none, _ :: _ => none
  | some m, e :: es => Monitor.run tSettle (m.next tSettle e) es

/-- The history keeps the bus protocol and ends between transactions, with the settle time passed. -/
def busQuiet (tSettle : Nat) (h : List Event) : Bool :=
  decide (Monitor.run tSettle (some Monitor.start) h = some Monitor.start)

/-! ## The transactions of a history -/

/-- A transaction: the two words sent and the two received (R12, R81). -/
structure Transaction where
  w1 : Word16
  w2 : Word16
  r1 : Word16
  r2 : Word16
  deriving DecidableEq, Repr

/-- Its frame (R66). -/
def Transaction.frame (t : Transaction) : FrameWord := frameOf t.w1 t.w2

/-- A history read so far: the first exchange of a transaction under way, and the transactions done, oldest first. -/
structure BusView where
  first : Option (Word16 × Word16)
  done : List Transaction
  deriving DecidableEq, Repr

/-- One event of a history. -/
def BusView.next (v : BusView) (e : Event) : BusView :=
  match e, v.first with
  | .xchg tx rx, none => { v with first := some (tx, rx) }
  | .xchg tx rx, some (w1, r1) => { first := none, done := v.done ++ [{ w1 := w1, w2 := tx, r1 := r1, r2 := rx }] }
  | .cs _, _ => { v with first := none }
  | .trig _, _ => v
  | .wait _, _ => v

/-- The transactions of a history, in order (R52). -/
def transactions (h : List Event) : List Transaction :=
  (h.foldl BusView.next { first := none, done := [] }).done

/-- The frames DDSC has sent, in order (R66, R69). -/
def sentFrames (h : List Event) : List FrameWord := (transactions h).map Transaction.frame

/-- The levels a history drives the trigger line and the chip select to, last. -/
def lastTrig (h : List Event) : Option Level :=
  h.foldl (fun l e => match e with | .trig l' => some l' | _ => l) none

/-- See `lastTrig`. -/
def lastCs (h : List Event) : Option Level :=
  h.foldl (fun l e => match e with | .cs l' => some l' | _ => l) none

/-! ## Environment rules as views of the history -/

/-- A write transaction's register and value. -/
def Transaction.asWrite (t : Transaction) : Option (Addr15 × Word16) :=
  if t.w1.getLsbD 15 then none else some (t.w1.setWidth 15, t.w2)

/-- One transaction's effect on the writes not committed yet: "A write to `A_RAMUPDATE` commits the shadow bank" (R51). -/
def uncommittedNext (c : Config) (ws : List (Addr15 × Word16)) (t : Transaction) : List (Addr15 × Word16) :=
  match t.asWrite with
  | none => ws
  | some (a, d) => if a = c.aRamUpdate then [] else ws ++ [(a, d)]

/-- The writes sent since the last commit or the last DDSC reset (R46, R227): what waits in the shadow bank, as far as it is
double-buffered. Which registers are is not in the source (N9; DESIGN CHOICE, log 14). A reset leaves the chip's shadow bank as it
is (R222) but restarts the history (R220), so after one this view is empty although writes from before it may still wait: it
speaks of the writes since the reset only (DESIGN CHOICE, unsafe across a reset, log 14). -/
def uncommitted (c : Config) (h : List Event) : List (Addr15 × Word16) :=
  (transactions h).foldl (uncommittedNext c) []

/-- The run-bit latency of R47 and R226 as a monitor: the first exchange of a transaction under way, and the ms still owed
between a write that sets the run bit and the next `TRIG(0)`. -/
structure RunMonitor where
  first : Option Word16
  owed : Nat
  deriving DecidableEq, Repr

/-- One event; `none` where the trigger is lowered before `T_RUN_MIN` ms have passed since a run-bit write. -/
def RunMonitor.next (c : Config) (m : RunMonitor) (e : Event) : Option RunMonitor :=
  match e, m.first with
  | .xchg tx _, none => some { m with first := some tx }
  | .xchg tx _, some w1 =>
    if w1 = addr16 c.aPatStatus ∧ tx.getLsbD c.runBit.val then some { first := none, owed := tRunMin }
    else some { m with first := none }
  | .cs _, _ => some { m with first := none }
  | .trig true, _ => some m
  | .trig false, _ => if m.owed = 0 then some m else none
  | .wait t, _ => some { m with owed := m.owed - t }

/-- The run-bit monitor after a history, from `m`. -/
def RunMonitor.run (c : Config) : Option RunMonitor → List Event → Option RunMonitor
  | m, [] => m
  | none, _ :: _ => none
  | some m, e :: es => RunMonitor.run c (m.next c e) es

end Sys2Proof.Machine
end

