-- ==== Sys2Proof/Safety.lean ====
section
/-! DEFINITION. What a good state of DDSC is, and the words the statements are made of: legal command words, the outcome of a
command by 60_exceptions.md R199, written from the rules and not from the meanings. -/

namespace Sys2Proof

open Sys2Proof.Machine

/-- A state at a command boundary that the rules allow: a configuration that keeps R8; no command under way, and the chip
deselected (R28: "At every command boundary it is 1"); `FCLK` in its range (R29); the lines at the levels the history last
drove (R26, R28); and a history that kept the bus protocol and ended with the settle time passed (R50, R69, R225). -/
structure Good (s : State) : Prop where
  cfg : s.cfg.wf = true
  idle : s.busy = false ∧ s.seq = none
  deselected : s.csN = true
  fclk : 1 ≤ s.fclk.toNat
  trigLine : lastTrig s.hist = some s.trig
  csLine : lastCs s.hist = some s.csN
  bus : busQuiet s.cfg.tSettle s.hist = true

/-- A state in which a command can be accepted (R24), under a configuration that keeps R8. -/
def Ready (s : State) : Prop := s.cfg.wf = true ∧ s.busy = false ∧ s.seq = none

/-- What a command leaves in `H` after the events it found there. -/
def eventsAfter (s t : State) : List Event := t.hist.drop s.hist.length

/-- The state a fault leaves: its bits set, its status and nothing else in the response, `BUSY` low, all else as it was (R191). -/
def faulted (bits : BitVec 5) (st : Status) (s : State) : State :=
  { s with fault := s.fault ||| bits, rsp := some { status := st }, busy := false }

/-- What a command word with opcode `op` means: it decodes to `f` of it, and a step that accepts it runs that instruction, unless
a reserved bit is set, when the step takes `ILLEGAL_CMD` and does nothing else (R61, R62, R64, R192). -/
def WordMeans (op : BitVec 4) (f : CmdWord → Instr) : Prop :=
  ∀ c : CmdWord, c.extractLsb' 0 4 = op →
    if c.extractLsb' 7 1 = 0#1 ∧ c.extractLsb' 11 5 = 0#5 then
      decodeCommand c = .instr (f c) ∧
        ∀ (s : State) (rest : List Request), Ready s → s.requests = .offer (.cmd c) :: rest →
          step s = exec (f c) { s with requests := rest }
    else
      decodeCommand c = .rejected .reservedBits ∧
        ∀ (s : State) (rest : List Request), Ready s → s.requests = .offer (.cmd c) :: rest →
          step s = .next (faulted 0b00001#5 .illegalCmd { s with requests := rest })

/-- `stride * (ch - 1)` of R100. -/
def chOffset (base : Word16) (ch : Chan) : Nat := (if base.toNat < 0x50 then 1 else 4) * (ch.toNat - 1)

/-- The fault of a channel command, by the order of R199: channel, base, negative address. -/
def chFault (base : Word16) (ch : Chan) : Option (BitVec 5 × Status) :=
  if ch.toNat = 0 ∨ 4 < ch.toNat then some (0b00100#5, .channelFault)
  else if 0x7F < base.toNat then some (0b00010#5, .addrFault)
  else if base.toNat < chOffset base ch then some (0b01000#5, .resolveFault)
  else none

/-- The register of a channel command that does not fault (R100). -/
def chAddr (base : Word16) (ch : Chan) : Word16 := BitVec.ofNat 16 (base.toNat - chOffset base ch)

/-- The fault of an address operand (R193). -/
def addrCondition (a : Nat) : Option (BitVec 5 × Status) := if 0x7F < a then some (0b00010#5, .addrFault) else none

/-- The InvalidParameter condition, which sets no `FAULT` bit (R120, R197). -/
def freqCondition (freq : Freq64) (fclk : BitVec 32) : Option (BitVec 5 × Status) :=
  if 0 ≤ freq.toInt ∧ freq.toInt ≤ (fclk.toNat : Int) then none else some (0b00000#5, .invalidParameter)

/-- The first condition of R199 a decoded instruction meets: the `FAULT` bits it sets and the status it reports. -/
def firstCondition (i : Instr) (s : State) : Option (BitVec 5 × Status) :=
  match i with
  | .regWrite addr _ => addrCondition addr.toNat
  | .regRead addr => addrCondition addr.toNat
  | .chResolve base ch => chFault base ch
  | .chWrite base ch _ => chFault base ch
  | .chRead base ch => chFault base ch
  | .freqEncode freq => freqCondition freq s.fclk
  | .freqDecode _ _ => none
  | .setFreq freq => freqCondition freq s.fclk
  | .getFreq => none
  | .setFclk hz => if hz.toNat = 0 ∨ 2 ^ 32 - 1 < hz.toNat then some (0b10000#5, .fclkFault) else none
  | .patStop => none
  | .patStart => none
  | .patUpdate => none
  | .patShutdown => none
  | .errSet _ => none
  | .frameWrite a _ => addrCondition a.toNat
  | .frameRead a => addrCondition a.toNat

/-- The tuning word of R121 by its formula, in the 48-bit container. -/
def tuningOf (freq : Freq64) (fclk : BitVec 32) : TuningWord :=
  BitVec.ofNat 48 ((freq.toInt.toNat * 2 ^ 25 + fclk.toNat) / (2 * fclk.toNat))

/-- `MSB register = w[23:8]` (R44). -/
def msbOf (tw : TuningWord) : Word16 := tw.extractLsb' 8 16

/-- `LSB register = w[7:0] ‖ 0x00` (R44). -/
def lsbOf (tw : TuningWord) : Word16 := tw.extractLsb' 0 8 ++ 0#8

/-- `msb ‖ lsb[15:8]` (R123). -/
def wordOfRegs (msb lsb : Word16) : TuningWord := BitVec.ofNat 48 (msb.toNat * 256 + lsb.toNat / 256)

end Sys2Proof
end

