-- ==== Sys2Proof/Certificates/Slice0/Obligations.lean ====
section
/-! DEFINITION. The statements for the provers. -/

open Sys2Proof Sys2Proof.Machine

/-! ## The commands: operands, faults, effect and frame

Each says the whole next state, so what it does not name is unchanged. `s.rx k` is the `k`-th word the chip answers from `s` on.
What the chip has left to answer (`chipIn`, `draws`) is the model's own bookkeeping (log 4); a command that uses the bus leaves it
to ExchangesTakeTheChipsAnswersInOrder. -/

/-- R84: REG_WRITE sends one write transaction, answers the echo and changes nothing else; an address above 0x007F faults. -/
def Obligations.RegWriteWritesOneRegister : Prop :=
  WordMeans 0x1 (fun c => .regWrite (c.extractLsb' 16 16) (c.extractLsb' 32 16)) ∧
  ∀ (addr data : Word16) (s : State),
    (addr.toNat ≤ 0x7F →
      ∃ t, exec (.regWrite addr data) s = .next t ∧ t = { s with
        csN := true
        busy := false
        hist := s.hist ++ writeEvents s.cfg addr data (s.rx 0) (s.rx 1)
        rsp := some { d0 := s.rx 1 }
        chipIn := t.chipIn
        draws := t.draws }) ∧
    (0x7F < addr.toNat → exec (.regWrite addr data) s = .next (faulted 0b00010#5 .addrFault s))

/-- R85: REG_READ sends one read transaction, answers the word received second and changes nothing else; an address above
0x007F faults. -/
def Obligations.RegReadReadsOneRegister : Prop :=
  WordMeans 0x2 (fun c => .regRead (c.extractLsb' 16 16)) ∧
  ∀ (addr : Word16) (s : State),
    (addr.toNat ≤ 0x7F →
      ∃ t, exec (.regRead addr) s = .next t ∧ t = { s with
        csN := true
        busy := false
        hist := s.hist ++ readEvents s.cfg addr (s.rx 0) (s.rx 1)
        rsp := some { d0 := s.rx 1 }
        chipIn := t.chipIn
        draws := t.draws }) ∧
    (0x7F < addr.toNat → exec (.regRead addr) s = .next (faulted 0b00010#5 .addrFault s))

/-- R101: CH_RESOLVE answers the channel's register and touches nothing but the response; the three faults in their order. -/
def Obligations.ChResolveAnswersTheRegister : Prop :=
  WordMeans 0x3 (fun c => .chResolve (c.extractLsb' 16 16) (c.extractLsb' 4 3)) ∧
  ∀ (base : Word16) (ch : Chan) (s : State),
    (chFault base ch = none →
      exec (.chResolve base ch) s = .next { s with busy := false, rsp := some { d0 := chAddr base ch } }) ∧
    (∀ bits st, chFault base ch = some (bits, st) → exec (.chResolve base ch) s = .next (faulted bits st s))

/-- R102: CH_WRITE writes the channel's register in one transaction and answers its address and the echo; a fault sends
nothing. -/
def Obligations.ChWriteWritesTheChannel : Prop :=
  WordMeans 0x4 (fun c => .chWrite (c.extractLsb' 16 16) (c.extractLsb' 4 3) (c.extractLsb' 32 16)) ∧
  ∀ (base : Word16) (ch : Chan) (data : Word16) (s : State),
    (chFault base ch = none →
      ∃ t, exec (.chWrite base ch data) s = .next t ∧ t = { s with
        csN := true
        busy := false
        hist := s.hist ++ writeEvents s.cfg (chAddr base ch) data (s.rx 0) (s.rx 1)
        rsp := some { d0 := chAddr base ch, d1 := s.rx 1 }
        chipIn := t.chipIn
        draws := t.draws }) ∧
    (∀ bits st, chFault base ch = some (bits, st) → exec (.chWrite base ch data) s = .next (faulted bits st s))

/-- R103: CH_READ reads the channel's register in one transaction and answers its address and the word; a fault sends
nothing. -/
def Obligations.ChReadReadsTheChannel : Prop :=
  WordMeans 0x5 (fun c => .chRead (c.extractLsb' 16 16) (c.extractLsb' 4 3)) ∧
  ∀ (base : Word16) (ch : Chan) (s : State),
    (chFault base ch = none →
      ∃ t, exec (.chRead base ch) s = .next t ∧ t = { s with
        csN := true
        busy := false
        hist := s.hist ++ readEvents s.cfg (chAddr base ch) (s.rx 0) (s.rx 1)
        rsp := some { d0 := chAddr base ch, d1 := s.rx 1 }
        chipIn := t.chipIn
        draws := t.draws }) ∧
    (∀ bits st, chFault base ch = some (bits, st) → exec (.chRead base ch) s = .next (faulted bits st s))

/-- R124: FREQ_ENCODE answers the tuning word and its two registers with no event; out of range it only records
InvalidParameter. The premise on FCLK is the invariant of R29. -/
def Obligations.FreqEncodeAnswersTheWord : Prop :=
  WordMeans 0x6 (fun c => .freqEncode (c.extractLsb' 64 64)) ∧
  ∀ (freq : Freq64) (s : State), 1 ≤ s.fclk.toNat →
    (0 ≤ freq.toInt ∧ freq.toInt ≤ (s.fclk.toNat : Int) →
      exec (.freqEncode freq) s = .next { s with
        busy := false
        rsp := some
          { d0 := msbOf (tuningOf freq s.fclk)
            d1 := lsbOf (tuningOf freq s.fclk)
            tw := tuningOf freq s.fclk } }) ∧
    (freq.toInt < 0 ∨ (s.fclk.toNat : Int) < freq.toInt →
      exec (.freqEncode freq) s =
        .next { s with busy := false, lastError := 7, rsp := some { status := .invalidParameter } })

/-- R125: FREQ_DECODE answers the tuning word and the exact frequency, both words unsigned, and changes nothing else. -/
def Obligations.FreqDecodeAnswersTheFrequency : Prop :=
  WordMeans 0x7 (fun c => .freqDecode (c.extractLsb' 32 16) (c.extractLsb' 48 16)) ∧
  ∀ (msb lsb : Word16) (s : State),
    exec (.freqDecode msb lsb) s = .next { s with
      busy := false
      rsp := some
        { tw := wordOfRegs msb lsb
          fqQ24 := BitVec.ofNat 64 ((wordOfRegs msb lsb).toNat * s.fclk.toNat) } }

/-- R126: SET_FREQ writes the MSB and then the LSB tuning-word register, in two transactions, and answers the words; out of range
it sends nothing and records InvalidParameter. The premise on FCLK is the invariant of R29. -/
def Obligations.SetFreqWritesBothRegisters : Prop :=
  WordMeans 0x8 (fun c => .setFreq (c.extractLsb' 64 64)) ∧
  ∀ (freq : Freq64) (s : State), 1 ≤ s.fclk.toNat →
    (0 ≤ freq.toInt ∧ freq.toInt ≤ (s.fclk.toNat : Int) →
      ∃ t, exec (.setFreq freq) s = .next t ∧ t = { s with
        csN := true
        busy := false
        hist := s.hist ++
          writeEvents s.cfg (s.cfg.aDdsTwMsb.setWidth 16) (msbOf (tuningOf freq s.fclk)) (s.rx 0) (s.rx 1) ++
          writeEvents s.cfg (s.cfg.aDdsTwLsb.setWidth 16) (lsbOf (tuningOf freq s.fclk)) (s.rx 2) (s.rx 3)
        rsp := some
          { d0 := msbOf (tuningOf freq s.fclk)
            d1 := lsbOf (tuningOf freq s.fclk)
            tw := tuningOf freq s.fclk }
        chipIn := t.chipIn
        draws := t.draws }) ∧
    (freq.toInt < 0 ∨ (s.fclk.toNat : Int) < freq.toInt →
      exec (.setFreq freq) s =
        .next { s with busy := false, lastError := 7, rsp := some { status := .invalidParameter } })

/-- R127: GET_FREQ reads the MSB and then the LSB register and answers both words, the tuning word and the exact frequency under
the current FCLK. -/
def Obligations.GetFreqReadsBothRegisters : Prop :=
  WordMeans 0x9 (fun _ => .getFreq) ∧
  ∀ s : State,
    ∃ t, exec .getFreq s = .next t ∧ t = { s with
      csN := true
      busy := false
      hist := s.hist ++
        readEvents s.cfg (s.cfg.aDdsTwMsb.setWidth 16) (s.rx 0) (s.rx 1) ++
        readEvents s.cfg (s.cfg.aDdsTwLsb.setWidth 16) (s.rx 2) (s.rx 3)
      rsp := some
        { d0 := s.rx 1
          d1 := s.rx 3
          tw := wordOfRegs (s.rx 1) (s.rx 3)
          fqQ24 := BitVec.ofNat 64 ((wordOfRegs (s.rx 1) (s.rx 3)).toNat * s.fclk.toNat) }
      chipIn := t.chipIn
      draws := t.draws }

/-- R128: SET_FCLK writes FCLK for a value in 1..2^32-1 with no event; 0 and larger values fault and leave FCLK. -/
def Obligations.SetFclkWritesTheClock : Prop :=
  WordMeans 0xA (fun c => .setFclk (c.extractLsb' 64 64)) ∧
  ∀ (hz : Freq64) (s : State),
    (1 ≤ hz.toNat ∧ hz.toNat ≤ 2 ^ 32 - 1 →
      exec (.setFclk hz) s = .next { s with busy := false, fclk := hz.setWidth 32, rsp := some {} }) ∧
    (hz.toNat = 0 ∨ 2 ^ 32 ≤ hz.toNat → exec (.setFclk hz) s = .next (faulted 0b10000#5 .fclkFault s))

/-- R153: PAT_STOP drives the trigger high, emits TRIG(1) and changes nothing else. -/
def Obligations.PatStopRaisesTheTrigger : Prop :=
  WordMeans 0xB (fun _ => .patStop) ∧
  ∀ s : State,
    exec .patStop s =
      .next { s with busy := false, trig := true, hist := s.hist ++ [.trig true], rsp := some {} }

/-- R154: PAT_START lowers the trigger, with the run variant only after the run bit is read as set or written and waited for;
all three cases of its event table, and nothing else changes. -/
def Obligations.PatStartEnsuresTheRunBit : Prop :=
  WordMeans 0xC (fun _ => .patStart) ∧
  ∀ s : State,
    (s.cfg.runVariant = false →
      exec .patStart s =
        .next { s with busy := false, trig := false, hist := s.hist ++ [.trig false], rsp := some {} }) ∧
    (s.cfg.runVariant = true → (s.rx 1).getLsbD s.cfg.runBit = true →
      ∃ t, exec .patStart s = .next t ∧ t = { s with
        csN := true
        busy := false
        trig := false
        hist := s.hist ++ readEvents s.cfg (s.cfg.aPatStatus.setWidth 16) (s.rx 0) (s.rx 1) ++ [.trig false]
        rsp := some {}
        chipIn := t.chipIn
        draws := t.draws }) ∧
    (s.cfg.runVariant = true → (s.rx 1).getLsbD s.cfg.runBit = false →
      ∃ t, exec .patStart s = .next t ∧ t = { s with
        csN := true
        busy := false
        trig := false
        hist := s.hist ++ readEvents s.cfg (s.cfg.aPatStatus.setWidth 16) (s.rx 0) (s.rx 1) ++
          writeEvents s.cfg (s.cfg.aPatStatus.setWidth 16) (1#16 <<< s.cfg.runBit.val) (s.rx 2) (s.rx 3) ++
          [.wait s.cfg.tRun, .trig false]
        rsp := some {}
        chipIn := t.chipIn
        draws := t.draws })

/-- R155: PAT_UPDATE stops, waits, commits, treats the run bit by its mode, waits and starts, whatever the chip answers; nothing
else changes. -/
def Obligations.PatUpdateCommitsAndRestarts : Prop :=
  WordMeans 0xD (fun _ => .patUpdate) ∧
  ∀ s : State,
    ∃ t, exec .patUpdate s = .next t ∧ t = { s with
      csN := true
      busy := false
      trig := false
      hist := s.hist ++ (updateEvents s).1
      rsp := some {}
      chipIn := t.chipIn
      draws := t.draws }

/-- R156: PAT_SHUTDOWN stops, and in clear_run mode writes 0 to the pattern-status register; nothing else changes. -/
def Obligations.PatShutdownStops : Prop :=
  WordMeans 0xE (fun _ => .patShutdown) ∧
  ∀ s : State,
    (s.cfg.shutdownMode = .triggerOnly →
      exec .patShutdown s =
        .next { s with busy := false, trig := true, hist := s.hist ++ [.trig true], rsp := some {} }) ∧
    (s.cfg.shutdownMode = .clearRun →
      ∃ t, exec .patShutdown s = .next t ∧ t = { s with
        csN := true
        busy := false
        trig := true
        hist := s.hist ++ [.trig true] ++ writeEvents s.cfg (s.cfg.aPatStatus.setWidth 16) 0 (s.rx 0) (s.rx 1)
        rsp := some {}
        chipIn := t.chipIn
        draws := t.draws })

/-- R180: ERR_SET writes its code to LAST_ERROR, with no event, and changes nothing else. -/
def Obligations.ErrSetRecordsTheCode : Prop :=
  WordMeans 0xF (fun c => .errSet (c.extractLsb' 8 3)) ∧
  ∀ (code : BitVec 3) (s : State),
    exec (.errSet code) s = .next { s with busy := false, lastError := code, rsp := some {} }

/-- The frames `0 a d` and `1 a 0x0000` run as instructions of the framer are the register write of R82 and the register read of
R83. That a frame is run by itself, that the echo or the word stands in `d0`, and that an address above 0x007F faults there, is the
model's choice (log 6). -/
def Obligations.FramesAreTheRegisterAccesses : Prop :=
  ∀ (a : Addr15) (d : Word16) (s : State),
    (a.toNat ≤ 0x7F →
      ∃ t, exec (.frameWrite a d) s = .next t ∧ t = { s with
        csN := true
        busy := false
        hist := s.hist ++ writeEvents s.cfg (a.setWidth 16) d (s.rx 0) (s.rx 1)
        rsp := some { d0 := s.rx 1 }
        chipIn := t.chipIn
        draws := t.draws }) ∧
    (a.toNat ≤ 0x7F →
      ∃ t, exec (.frameRead a) s = .next t ∧ t = { s with
        csN := true
        busy := false
        hist := s.hist ++ readEvents s.cfg (a.setWidth 16) (s.rx 0) (s.rx 1)
        rsp := some { d0 := s.rx 1 }
        chipIn := t.chipIn
        draws := t.draws }) ∧
    (0x7F < a.toNat →
      exec (.frameWrite a d) s = .next (faulted 0b00010#5 .addrFault s) ∧
      exec (.frameRead a) s = .next (faulted 0b00010#5 .addrFault s))

/-- R45, as the model carries it (log 4): the words an instruction's exchanges receive are the chip's next answers, in order, one
for each exchange, and no other answer is used up. -/
def Obligations.ExchangesTakeTheChipsAnswersInOrder : Prop :=
  ∀ (i : Instr) (s t : State), exec i s = .next t →
    let n := (receivedWords (eventsAfter s t)).length
    receivedWords (eventsAfter s t) = (List.range n).map s.rx ∧
    t.chipIn = s.chipIn.drop n ∧ t.draws = s.draws + n

/-! ## Encodings -/

/-- Decode and encode agree for every instruction of every family, with every operand at every value. -/
def Obligations.DecodeOfEncodeIsTheInstruction : Prop :=
  ∀ i : Instr, decode (encode i) = .instr i

/-- R65: a field that a legal command does not read is ignored: the word decodes alike, and a step that accepts it does the same,
response and all. -/
def Obligations.UnreadFieldsAreIgnored : Prop :=
  ∀ (c c' : CmdWord) (i : Instr), decodeCommand c = .instr i → c' &&& readMask i = c &&& readMask i →
    decodeCommand c' = .instr i ∧
    ∀ (s : State) (rest : List Request), Ready s →
      step { s with requests := .offer (.cmd c') :: rest } = step { s with requests := .offer (.cmd c) :: rest }

/-- R64 and R70: a command word is illegal exactly when its op is 0 or a reserved bit is set, and every other word decodes. -/
def Obligations.IllegalWordsAreExactlyTheReserved : Prop :=
  ∀ c : CmdWord,
    ((∃ r, decodeCommand c = .rejected r) ↔
      c.extractLsb' 0 4 = 0#4 ∨ c.extractLsb' 7 1 ≠ 0#1 ∨ c.extractLsb' 11 5 ≠ 0#5) ∧
    ((∀ r, decodeCommand c ≠ .rejected r) → ∃ i, decodeCommand c = .instr i ∧ ∃ c', encode i = .cmd c')

/-- R74: the worked encodings. -/
def Obligations.WorkedEncodingsDecode : Prop :=
  decodeCommand 0x0000000000000000_0000_1234_0025_0001#128 = .instr (.regWrite 0x25 0x1234) ∧
  decodeCommand 0x0000000000000000_0000_0000_001E_0002#128 = .instr (.regRead 0x1E) ∧
  decodeCommand 0x0000000000000000_0000_0100_005C_0034#128 = .instr (.chWrite 0x5C 3 0x0100) ∧
  decodeCommand 0x00000000000F4240_0000_0000_0000_0008#128 = .instr (.setFreq 1000000) ∧
  decodeCommand 0xFFFFFFFFFFFFFFFF_0000_0000_0000_0008#128 = .instr (.setFreq (-1)) ∧
  decodeCommand 0x0000000000000000_0000_0000_0000_000F#128 = .instr (.errSet 0) ∧
  decodeCommand 0x0000000000000000_0000_0000_0000_070F#128 = .instr (.errSet 7) ∧
  decodeCommand 0x0000000000000000_6E00_01A3_0000_0007#128 = .instr (.freqDecode 0x01A3 0x6E00)

/-- R67 and R68: the address words of a write and of a read, and the zero dummy, are those of the frame that encodes the
access; DDSC's two register accesses send exactly these words. -/
def Obligations.FramesAreAddressWordThenData : Prop :=
  (∀ (a : Addr15) (d : Word16), encode (.frameWrite a d) = .frame (frameOf (a.setWidth 16) d)) ∧
  (∀ a : Addr15, encode (.frameRead a) = .frame (frameOf (a.setWidth 16 ||| 0x8000#16) 0x0000#16)) ∧
  (∀ (a d : Word16) (s : State), a.toNat ≤ 0x7F →
    sentFrames (eventsAfter s (s.memWrite a d).2) = [0#1 ++ a.setWidth 15 ++ d] ∧
    sentFrames (eventsAfter s (s.memRead a).2) = [1#1 ++ a.setWidth 15 ++ 0#16])

/-- R86 and R43: bits go out most significant first, a received word is assembled the same way, and a frame's bits are those of
its first word and then those of its second. -/
def Obligations.BitsGoMostSignificantFirst : Prop :=
  (∀ (w : Word16) (k : Nat), k < 16 → (bitsMsbFirst w)[k]? = some (w.getLsbD (15 - k))) ∧
  (∀ w : Word16, wordOfBits (bitsMsbFirst w) = w) ∧
  (∀ w1 w2 : Word16, bitsMsbFirst (frameOf w1 w2) = bitsMsbFirst w1 ++ bitsMsbFirst w2)

/-! ## A step -/

/-- A step runs the instruction the offered word decodes to; around `exec` a step only takes the offer from the host. For a command
word this is R24 and R70; that a frame offered by itself is run too is the model's choice (log 6). -/
def Obligations.StepRunsTheDecodedInstruction : Prop :=
  ∀ (s : State) (w : CodeWord) (rest : List Request) (i : Instr), Ready s → s.requests = .offer w :: rest →
    decode w = .instr i → step s = exec i { s with requests := rest }

/-- R192 and R64: an illegal command word sets FAULT bit 0, answers status ILLEGAL_CMD and has no other effect. -/
def Obligations.IllegalWordFaults : Prop :=
  ∀ (s : State) (c : CmdWord) (rest : List Request), Ready s → s.requests = .offer (.cmd c) :: rest →
    (c.extractLsb' 0 4 = 0#4 ∨ c.extractLsb' 7 1 ≠ 0#1 ∨ c.extractLsb' 11 5 ≠ 0#5) →
    step s = .next (faulted 0b00001#5 .illegalCmd { s with requests := rest })

/-- The model's choice (log 7): a word at the framer's port that is no frame of R66, a read with a dummy that is not 0, stops the
machine by name. R69: DDSC never sends one. -/
def Obligations.NoFrameStopsByName : Prop :=
  ∀ (s : State) (f : FrameWord) (rest : List Request), Ready s → s.requests = .offer (.frame f) :: rest →
    f.extractLsb' 31 1 = 1#1 → f.extractLsb' 0 16 ≠ 0#16 → step s = .fault .illegalFrame

/-- R24: while a command runs no offer is accepted; the command runs to its end and the offers stand as they were. -/
def Obligations.BusyHoldsTheOffer : Prop :=
  ∀ (s : State) (fl : Flight), s.cfg.wf = true → s.busy = true → s.seq = some fl →
    (∀ rest, s.requests ≠ .reset :: rest) →
    ∃ t, step s = .next t ∧ t.requests = s.requests ∧ t.busy = false ∧ t.seq = none ∧ t.rsp ≠ none

/-- R220, R222 and R38: reset at any time sets every piece of DDSC's state, and leaves the chip. That the response record goes too
is the model's reading of R34 (DEDUCED, log 8: R220 and R38 do not list it); that the host's further offers stand is the model's
choice (log 5). -/
def Obligations.ResetSetsEveryRegister : Prop :=
  ∀ (s : State) (rest : List Request), s.cfg.wf = true → s.requests = .reset :: rest →
    step s = .next
      { trig := true
        csN := true
        fclk := BitVec.ofNat 32 s.cfg.fclkReset
        lastError := 0
        fault := 0
        busy := false
        hist := [.cs true, .trig true]
        rsp := none
        seq := none
        cfg := s.cfg
        requests := rest
        chipIn := s.chipIn
        draws := s.draws }

/-- R221: a reset during a command abandons it: no response, no remaining event, the state of R220. -/
def Obligations.ResetAbandonsACommand : Prop :=
  ∀ (s : State) (c : CmdWord) (k : Nat) (rest : List Request), Ready s →
    s.requests = .offerThenReset c k :: rest →
    ∃ t, step s = .next t ∧ t.rsp = none ∧ t.hist = [.cs true, .trig true] ∧ t.outputs = State.reset.outputs ∧
      t.fclk = BitVec.ofNat 32 s.cfg.fclkReset ∧ t.seq = none ∧ t.cfg = s.cfg ∧ t.requests = rest

/-- R209: with nothing offered DDSC is idle and every state survives. -/
def Obligations.IdleStepChangesNothing : Prop :=
  ∀ s : State, Ready s → s.requests = [] → step s = .next s

/-- R8: "A model refuses a configuration that breaks one." -/
def Obligations.BadConfigurationIsRefused : Prop :=
  ∀ s : State,
    (0x7F < s.cfg.aPatStatus.toNat ∨ 0x7F < s.cfg.aRamUpdate.toNat ∨ 0x7F < s.cfg.aDdsTwMsb.toNat ∨
      0x7F < s.cfg.aDdsTwLsb.toNat ∨ s.cfg.aDdsTwLsb = s.cfg.aDdsTwMsb ∨
      0x50 ≤ s.cfg.bGain.toNat ∨ s.cfg.bGain.toNat < 3 ∨ 0x50 ≤ s.cfg.bPhase.toNat ∨ s.cfg.bPhase.toNat < 3 ∨
      (s.cfg.runVariant = false ∧ (s.cfg.updRunMode ≠ .none ∨ s.cfg.shutdownMode ≠ .triggerOnly)) ∨
      s.cfg.tSettle < 1 ∨ s.cfg.tRun < 10 ∨ s.cfg.fclkReset = 0 ∨ 2 ^ 32 ≤ s.cfg.fclkReset) ↔
    step s = .refused .badConfiguration

/-- R38: the reset values of all DDSC state, in the default configuration. -/
def Obligations.ResetValues : Prop :=
  State.reset.trig = true ∧ State.reset.csN = true ∧ State.reset.fclk.toNat = 156250000 ∧
  State.reset.lastError = 0 ∧ State.reset.fault = 0 ∧ State.reset.busy = false ∧
  State.reset.hist = [.cs true, .trig true] ∧ State.reset.seq = none ∧ State.reset.pstate = .stopped

/-! ## Outcomes -/

/-- R199 and R191: a word that does not decode reports ILLEGAL_CMD before all else; every instruction ends in one outcome, that of
the first condition it meets. Where it meets one, nothing changes but the FAULT bit (or LAST_ERROR) and the response; where it
meets none, the status is OK and FAULT stands. R199 lists commands only: that a frame run by itself has the condition ADDR_FAULT
is the model's choice (log 6). -/
def Obligations.OneOutcomeByPriority : Prop :=
  (∀ (s : State) (c : CmdWord) (rest : List Request), Ready s → s.requests = .offer (.cmd c) :: rest →
    (∀ i, decodeCommand c ≠ .instr i) →
    step s = .next (faulted 0b00001#5 .illegalCmd { s with requests := rest })) ∧
  ∀ (i : Instr) (s : State),
    (firstCondition i s = none →
      ∃ t r, exec i s = .next t ∧ t.rsp = some r ∧ r.status = .ok ∧ t.fault = s.fault ∧ t.busy = false) ∧
    (∀ bits st, firstCondition i s = some (bits, st) →
      exec i s = .next { faulted bits st s with lastError := if st = .invalidParameter then 7 else s.lastError })

/-- R181: only ERR_SET, the invalid-frequency paths of FREQ_ENCODE and SET_FREQ, and reset write LAST_ERROR, and no command reads
it. -/
def Obligations.LastErrorHasNoOtherPath : Prop :=
  (∀ (i : Instr) (s t : State), exec i s = .next t →
    t.lastError = s.lastError ∨ (∃ code, i = .errSet code ∧ t.lastError = code) ∨
      (∃ f : Freq64, (i = .freqEncode f ∨ i = .setFreq f) ∧ (f.toInt < 0 ∨ (s.fclk.toNat : Int) < f.toInt) ∧
        t.lastError = 7)) ∧
  (∀ s : State, (execIllegal s).lastError = s.lastError) ∧
  (∀ s : State, s.applyReset.lastError = 0) ∧
  (∀ (i : Instr) (s : State) (e : BitVec 3), ∃ t t', exec i s = .next t ∧
    exec i { s with lastError := e } = .next t' ∧ t' = { t with lastError := t'.lastError })

/-- R31, R34 and R201: a command only adds FAULT bits, and what it adds, like all else it does, does not depend on FAULT. -/
def Obligations.FaultBitsAccumulateUnread : Prop :=
  ∀ (i : Instr) (s : State) (f : BitVec 5), ∃ t bits, exec i s = .next t ∧ t.fault = s.fault ||| bits ∧
    exec i { s with fault := f } = .next { t with fault := f ||| bits }

/-! ## The resolver -/

/-- R100 and R104: `Resolve` on natural numbers: the regime by the base alone, and the faults in their order. -/
def Obligations.ResolveFollowsTheRegimes : Prop :=
  ∀ (base : Word16) (ch : Chan),
    (ch.toNat < 1 ∨ 4 < ch.toNat → resolve base ch = .faults .channelFault) ∧
    (1 ≤ ch.toNat → ch.toNat ≤ 4 → 0x7F < base.toNat → resolve base ch = .faults .addrFault) ∧
    (1 ≤ ch.toNat → ch.toNat ≤ 4 → base.toNat < 0x50 → base.toNat < ch.toNat - 1 →
      resolve base ch = .faults .resolveFault) ∧
    (1 ≤ ch.toNat → ch.toNat ≤ 4 → base.toNat < 0x50 → ch.toNat - 1 ≤ base.toNat →
      ∃ a, resolve base ch = .ok a ∧ a.toNat = base.toNat - (ch.toNat - 1)) ∧
    (1 ≤ ch.toNat → ch.toNat ≤ 4 → 0x50 ≤ base.toNat → base.toNat ≤ 0x7F →
      ∃ a, resolve base ch = .ok a ∧ a.toNat = base.toNat - 4 * (ch.toNat - 1))

/-- R105: the laws of `Resolve`. -/
def Obligations.ResolveLaws : Prop :=
  ∀ b : Word16, b.toNat ≤ 0x7F →
    resolve b 1 = .ok b ∧
    (∀ (ch ch' : Chan) (a a' : Word16), ch.toNat < ch'.toNat → resolve b ch = .ok a → resolve b ch' = .ok a' →
      a'.toNat < a.toNat) ∧
    (∀ ch : Chan, resolve b ch = .faults .resolveFault → b.toNat ≤ 2 ∧ b.toNat + 1 < ch.toNat) ∧
    (∀ (ch : Chan) (a : Word16), resolve b ch = .ok a → a.toNat ≤ 0x7F) ∧
    (b.toNat < 0x50 → 3 ≤ b.toNat →
      resolve b 2 = .ok (b - 1) ∧ resolve b 3 = .ok (b - 2) ∧ resolve b 4 = .ok (b - 3)) ∧
    (0x50 ≤ b.toNat →
      resolve b 2 = .ok (b - 4) ∧ resolve b 3 = .ok (b - 8) ∧ resolve b 4 = .ok (b - 12))

/-! ## The codec -/

/-- R121: `Encode` is the formula, rounds to nearest with ties up, fits 0..2^24, and needs no more than 58 bits on the way. -/
def Obligations.EncodeRoundsToNearest : Prop :=
  ∀ (freq : Freq64) (fclk : BitVec 32), 1 ≤ fclk.toNat → 0 ≤ freq.toInt → freq.toInt ≤ (fclk.toNat : Int) →
    (encodeTw freq fclk).toNat = (freq.toInt.toNat * 2 ^ 25 + fclk.toNat) / (2 * fclk.toNat) ∧
    (encodeTw freq fclk).toNat ≤ 2 ^ 24 ∧
    (2 * (encodeTw freq fclk).toNat) * fclk.toNat ≤ freq.toInt.toNat * 2 ^ 25 + fclk.toNat ∧
    freq.toInt.toNat * 2 ^ 25 < (2 * (encodeTw freq fclk).toNat + 1) * fclk.toNat ∧
    freq.toInt.toNat * 2 ^ 25 + fclk.toNat < 2 ^ 58

/-- R122 and R44: `Split` takes bits 23:8 and bits 7:0 into the upper byte, the lower byte 0; 2^24 is the one value up to 2^24 with
a bit above 23, and it splits to zeros. -/
def Obligations.SplitPacksTheWord : Prop :=
  (∀ tw : TuningWord, splitTw tw = (tw.extractLsb' 8 16, tw.extractLsb' 0 8 ++ 0#8)) ∧
  (∀ tw : TuningWord, tw.toNat ≤ 2 ^ 24 → tw.extractLsb' 24 24 ≠ 0#24 → tw = 0x1000000#48) ∧
  splitTw 0x1000000#48 = (0x0000#16, 0x0000#16)

/-- R123: `Decode` reads both words unsigned, ignores the low byte of the LSB register, and the product is exact. -/
def Obligations.DecodeIsUnsignedAndExact : Prop :=
  ∀ (msb lsb : Word16) (fclk : BitVec 32),
    decodeTw msb lsb = (0#24 ++ msb ++ lsb.extractLsb' 8 8 : BitVec 48) ∧
    (decodeTw msb lsb).toNat ≤ 2 ^ 24 - 1 ∧
    (fqQ24 (decodeTw msb lsb) fclk).toNat = (decodeTw msb lsb).toNat * fclk.toNat ∧
    (fqQ24 (decodeTw msb lsb) fclk).toNat < 2 ^ 56 ∧
    wholeHz (fqQ24 (decodeTw msb lsb) fclk) = (decodeTw msb lsb).toNat * fclk.toNat / 2 ^ 24

/-- R129: below the wrap point the round trip gives the word back, and the frequency within half a quantisation step. -/
def Obligations.RoundTripWithinHalfAStep : Prop :=
  ∀ (freq : Freq64) (fclk : BitVec 32), 1 ≤ fclk.toNat → 0 ≤ freq.toInt → freq.toInt ≤ (fclk.toNat : Int) →
    (encodeTw freq fclk).toNat < 2 ^ 24 →
    let r := splitTw (encodeTw freq fclk)
    decodeTw r.1 r.2 = encodeTw freq fclk ∧
    2 * |((fqQ24 (decodeTw r.1 r.2) fclk).toNat : Int) - freq.toInt * 2 ^ 24| ≤ (fclk.toNat : Int)

/-- R130: the word is 2^24 exactly from FCLK - FCLK/2^25 on; there both registers are 0 and the decoded frequency is 0; the largest
decoded frequency is FCLK - FCLK/2^24. -/
def Obligations.WrapAtTheTop : Prop :=
  ∀ (freq : Freq64) (fclk : BitVec 32), 1 ≤ fclk.toNat → 0 ≤ freq.toInt → freq.toInt ≤ (fclk.toNat : Int) →
    ((encodeTw freq fclk).toNat = 2 ^ 24 ↔
      (2 ^ 25 - 1) * (fclk.toNat : Int) ≤ 2 ^ 25 * freq.toInt) ∧
    ((encodeTw freq fclk).toNat = 2 ^ 24 →
      splitTw (encodeTw freq fclk) = (0x0000#16, 0x0000#16) ∧
      fqQ24 (decodeTw (splitTw (encodeTw freq fclk)).1 (splitTw (encodeTw freq fclk)).2) fclk = 0#64) ∧
    (∀ m l : Word16, (fqQ24 (decodeTw m l) fclk).toNat ≤ (2 ^ 24 - 1) * fclk.toNat) ∧
    (fqQ24 (decodeTw 0xFFFF#16 0xFF00#16) fclk).toNat = (2 ^ 24 - 1) * fclk.toNat

/-- R131: the six further laws of the codec. -/
def Obligations.CodecLaws : Prop :=
  (∀ fclk : BitVec 32, 1 ≤ fclk.toNat → encodeTw 0 fclk = 0) ∧
  (∀ (f g : Freq64) (fclk : BitVec 32), 1 ≤ fclk.toNat → 0 ≤ f.toInt → f.toInt ≤ g.toInt →
    g.toInt ≤ (fclk.toNat : Int) → (encodeTw f fclk).toNat ≤ (encodeTw g fclk).toNat) ∧
  (∀ (f : Freq64) (fclk : BitVec 32), 1 ≤ fclk.toNat → 2 * f.toInt = (fclk.toNat : Int) →
    (encodeTw f fclk).toNat = 2 ^ 23) ∧
  (∀ m l : Word16, splitTw (decodeTw m l) = (m, l &&& 0xFF00#16)) ∧
  (∀ tw : TuningWord, tw.toNat < 2 ^ 24 → decodeTw (splitTw tw).1 (splitTw tw).2 = tw) ∧
  (∀ m l l' : Word16, l &&& 0xFF00#16 = l' &&& 0xFF00#16 → decodeTw m l = decodeTw m l')

/-- SET_FREQ and then GET_FREQ, when the chip answers the two reads with the words SET_FREQ sent: below the wrap point the tuning
word comes back and the frequency is within half a step. -/
def Obligations.SetFreqThenGetFreq : Prop :=
  ∀ (freq : Freq64) (s : State), 1 ≤ s.fclk.toNat → 0 ≤ freq.toInt → freq.toInt ≤ (s.fclk.toNat : Int) →
    (tuningOf freq s.fclk).toNat < 2 ^ 24 →
    ∃ t F1 F2, exec (.setFreq freq) s = .next t ∧ sentFrames (eventsAfter s t) = [F1, F2] ∧
      ∀ (r r' : Word16) (rest : List Word16), ∃ u q,
        exec .getFreq { t with chipIn := r :: frameW2 F1 :: r' :: frameW2 F2 :: rest } = .next u ∧
        u.rsp = some q ∧ q.tw = tuningOf freq s.fclk ∧
        2 * |(q.fqQ24.toNat : Int) - freq.toInt * 2 ^ 24| ≤ (s.fclk.toNat : Int)

/-! ## The pattern machine -/

/-- R150: every command ends in the pattern state of the table. -/
def Obligations.PatternTransitions : Prop :=
  ∀ (i : Instr) (s : State), ∃ t, exec i s = .next t ∧
    t.pstate =
      match i with
      | .patStop => .stopped
      | .patStart => .running
      | .patUpdate => .running
      | .patShutdown => .stopped
      | _ => s.pstate

/-- R157: a second PAT_STOP changes the event history only, by one more TRIG(1). -/
def Obligations.StopIsIdempotent : Prop :=
  ∀ s t : State, exec .patStop s = .next t →
    t.trig = true ∧ exec .patStop t = .next { t with hist := t.hist ++ [.trig true] }

/-- R158: after PAT_UPDATE from any state, under every chip answer and configuration, TRIG = 0 and the command's last event is
TRIG(0). -/
def Obligations.UpdateAlwaysEndsRunning : Prop :=
  ∀ s : State, ∃ t, exec .patUpdate s = .next t ∧ t.trig = false ∧ (eventsAfter s t).getLast? = some (.trig false)

/-- R159: in every PAT_UPDATE the TRIG(1) comes before the RAM-update transaction and every TRIG(0) after it, so the chip never
sees the commit while the trigger is low. -/
def Obligations.CommitOnlyWhileStopped : Prop :=
  ∀ s : State, ∃ t pre post, exec .patUpdate s = .next t ∧
    t.hist = s.hist ++ pre ++
      writeEvents s.cfg (s.cfg.aRamUpdate.setWidth 16) s.cfg.vRamUpdate (s.rx 0) (s.rx 1) ++ post ∧
    .trig true ∈ pre ∧ .trig false ∉ pre ∧ lastTrig (s.hist ++ pre) = some true ∧
    .trig false ∈ post ∧ .trig true ∉ post

/-- R226: PAT_START and PAT_UPDATE never lower the trigger before 10 ms have passed since a run-bit write of theirs; for PAT_UPDATE
in reassert mode this needs T_UPD2 ≥ 10. (The two register parameters are taken to differ: R8 does not say so.) -/
def Obligations.RunBitLatencyIsEnforced : Prop :=
  ∀ (i : Instr) (s : State), s.cfg.wf = true → s.cfg.aRamUpdate ≠ s.cfg.aPatStatus →
    (i = .patStart ∨ (i = .patUpdate ∧ (s.cfg.updRunMode = .reassert → 10 ≤ s.cfg.tUpd2))) →
    ∃ t m, exec i s = .next t ∧
      RunMonitor.run s.cfg (some { first := none, owed := 0 }) (eventsAfter s t) = some m ∧ m.owed = 0

/-! ## The bus and the machine as a whole -/

/-- The reset state of every configuration that keeps R8 is good. -/
def Obligations.ResetIsGood : Prop :=
  ∀ c : Config, c.wf = true → Good (State.resetTo c)

/-- Every step keeps a good state good: the configuration, an idle sequencer with the chip deselected at the command boundary,
FCLK ≥ 1, the lines as the history says, and a history of whole transactions with legal addresses, zero dummies and the settle
time between (R28, R29, R50, R68, R69, R89, R225). -/
def Obligations.EveryStepKeepsGood : Prop :=
  ∀ s t : State, Good s → step s = .next t → Good t

/-- R190: no operation is fatal. In a good state every step answers a next state, unless the word at the framer's port is no
frame. -/
def Obligations.GoodStatesAlwaysStep : Prop :=
  ∀ s : State, Good s → (∀ f rest, s.requests = .offer (.frame f) :: rest → ∃ i, decodeFrame f = .instr i) →
    ∃ t, step s = .next t

/-- R69: every frame a command sends is one of the two forms of R66 with an address up to ADDR_MAX. -/
def Obligations.SentFramesAreLegal : Prop :=
  ∀ (i : Instr) (s t : State) (f : FrameWord), s.cfg.wf = true → exec i s = .next t →
    f ∈ sentFrames (eventsAfter s t) → ∃ j, decodeFrame f = .instr j ∧ j.wellFormed = true

/-- R87: what the chip answers to the first exchange of a transaction stands in the event history and changes nothing else. -/
def Obligations.FirstReceivedWordIsDiscarded : Prop :=
  ∀ (i : Instr) (s : State) (l l' : List Word16), l.length = l'.length →
    (∀ k : Nat, l[2 * k + 1]? = l'[2 * k + 1]?) →
    ∃ t t', exec i { s with chipIn := l } = .next t ∧ exec i { s with chipIn := l' } = .next t' ∧
      t.hist.map Event.forgetRx = t'.hist.map Event.forgetRx ∧
      t' = { t with hist := t'.hist, chipIn := t'.chipIn }

/-- R227 and R46: SET_FREQ leaves its two writes uncommitted, after those that were; when neither register is the commit
register. -/
def Obligations.SetFreqWaitsForTheCommit : Prop :=
  ∀ (freq : Freq64) (s t : State), 1 ≤ s.fclk.toNat → 0 ≤ freq.toInt → freq.toInt ≤ (s.fclk.toNat : Int) →
    s.cfg.aDdsTwMsb ≠ s.cfg.aRamUpdate → s.cfg.aDdsTwLsb ≠ s.cfg.aRamUpdate →
    exec (.setFreq freq) s = .next t →
    uncommitted s.cfg t.hist =
      uncommitted s.cfg s.hist ++
        [(s.cfg.aDdsTwMsb, msbOf (tuningOf freq s.fclk)), (s.cfg.aDdsTwLsb, lsbOf (tuningOf freq s.fclk))]

/-- The whole-command meaning and the machine that does one action a tick agree: from acceptance, the ticks to the command's end
give exactly what `exec` gives (R9, R24, R33). -/
def Obligations.TicksRunTheWholeCommand : Prop :=
  (∀ (i : Instr) (s : State), s.seq = none → exec i s = .next (s.launch (some i)).drain) ∧
  (∀ s : State, s.seq = none → execIllegal s = (s.launch none).drain)

/-- R24: from any position the command under way comes to its end in its bound of ticks, with a response and BUSY = 0, and further
ticks do nothing. -/
def Obligations.TicksReachTheEnd : Prop :=
  ∀ (s : State) (fl : Flight), s.seq = some fl →
    s.drain.seq = none ∧ s.drain.busy = false ∧ s.drain.rsp ≠ none ∧ s.drain.requests = s.requests ∧
    ∀ n : Nat, fl.cost ≤ n → ticks n s = s.drain

/-- R24 and R32: between ticks BUSY is 1 exactly while a command is under way. That no response stands before its end is the model's
reading of R34, which clears the previous one by "the next command" (DEDUCED, log 8); the ticks are the model's choice (log 10). -/
def Obligations.BusyWhileACommandRuns : Prop :=
  ∀ (i : Option Instr) (s : State) (k : Nat),
    let u := ticks k (s.launch i)
    (u.busy = true ↔ u.seq ≠ none) ∧ (u.busy = true ↔ u.rsp = none)

/-- R28 and R50: between ticks the history always keeps the bus protocol, and CS_N is 0 exactly inside a transaction. -/
def Obligations.SelectedOnlyInsideATransaction : Prop :=
  ∀ (i : Option Instr) (s : State) (k : Nat), Good s →
    ∃ m, Monitor.run s.cfg.tSettle (some Monitor.start) (ticks k (s.launch i)).hist = some m ∧
      ((ticks k (s.launch i)).csN = false ↔ m.phase ≠ .idle)

/-- R24 and R52: what has happened after any number of ticks is the beginning of what the whole command does; nothing comes
between. -/
def Obligations.TicksEmitThePrefix : Prop :=
  ∀ (i : Instr) (s : State) (k : Nat), s.seq = none →
    ∃ t, exec i s = .next t ∧ s.hist <+: (ticks k (s.launch (some i))).hist ∧
      (ticks k (s.launch (some i))).hist <+: t.hist
end

