-- ==== Sys2Proof/Laws/Decode.lean ====
section
/-! SUPPORT. The fields of an encoded command word and of a frame: what the encoder puts in, the decoder's field readers get
back. -/

namespace Sys2Proof

/-- The low part of a concatenation. -/
theorem extract_append_low {n m : Nat} (x : BitVec n) (y : BitVec m) : (x ++ y).extractLsb' 0 m = y := by
  ext i hi
  simp [BitVec.getLsbD_append, hi]

/-- Past the low part of a concatenation stands the high part. -/
theorem extract_append_skip {n m : Nat} (x : BitVec n) (y : BitVec m) (s l : Nat) (h : m ≤ s) :
    (x ++ y).extractLsb' s l = x.extractLsb' (s - m) l := by
  ext i hi
  have h' : ¬ s + i < m := by omega
  simp only [BitVec.getElem_extractLsb', BitVec.getLsbD_append, h', ite_false]
  congr 1
  omega

section
variable (op : BitVec 4) (ch : Chan) (code : BitVec 3) (addr data data2 : Word16) (arg : Freq64)

@[simp] theorem fieldOp_mkCmd : fieldOp (mkCmd op ch code addr data data2 arg) = op := by
  unfold fieldOp mkCmd
  exact extract_append_low _ _

@[simp] theorem fieldCh_mkCmd : fieldCh (mkCmd op ch code addr data data2 arg) = ch := by
  unfold fieldCh mkCmd
  rw [extract_append_skip _ _ _ _ (by decide)]
  exact extract_append_low _ _

@[simp] theorem fieldRsv0_mkCmd : fieldRsv0 (mkCmd op ch code addr data data2 arg) = 0 := by
  unfold fieldRsv0 mkCmd
  rw [extract_append_skip _ _ _ _ (by decide)]
  rw [extract_append_skip _ _ _ _ (by decide)]
  exact extract_append_low _ _

@[simp] theorem fieldCode_mkCmd : fieldCode (mkCmd op ch code addr data data2 arg) = code := by
  unfold fieldCode mkCmd
  rw [extract_append_skip _ _ _ _ (by decide)]
  rw [extract_append_skip _ _ _ _ (by decide)]
  rw [extract_append_skip _ _ _ _ (by decide)]
  exact extract_append_low _ _

@[simp] theorem fieldRsv1_mkCmd : fieldRsv1 (mkCmd op ch code addr data data2 arg) = 0 := by
  unfold fieldRsv1 mkCmd
  rw [extract_append_skip _ _ _ _ (by decide)]
  rw [extract_append_skip _ _ _ _ (by decide)]
  rw [extract_append_skip _ _ _ _ (by decide)]
  rw [extract_append_skip _ _ _ _ (by decide)]
  exact extract_append_low _ _

@[simp] theorem fieldAddr_mkCmd : fieldAddr (mkCmd op ch code addr data data2 arg) = addr := by
  unfold fieldAddr mkCmd
  rw [extract_append_skip _ _ _ _ (by decide)]
  rw [extract_append_skip _ _ _ _ (by decide)]
  rw [extract_append_skip _ _ _ _ (by decide)]
  rw [extract_append_skip _ _ _ _ (by decide)]
  rw [extract_append_skip _ _ _ _ (by decide)]
  exact extract_append_low _ _

@[simp] theorem fieldData_mkCmd : fieldData (mkCmd op ch code addr data data2 arg) = data := by
  unfold fieldData mkCmd
  rw [extract_append_skip _ _ _ _ (by decide)]
  rw [extract_append_skip _ _ _ _ (by decide)]
  rw [extract_append_skip _ _ _ _ (by decide)]
  rw [extract_append_skip _ _ _ _ (by decide)]
  rw [extract_append_skip _ _ _ _ (by decide)]
  rw [extract_append_skip _ _ _ _ (by decide)]
  exact extract_append_low _ _

@[simp] theorem fieldData2_mkCmd : fieldData2 (mkCmd op ch code addr data data2 arg) = data2 := by
  unfold fieldData2 mkCmd
  rw [extract_append_skip _ _ _ _ (by decide)]
  rw [extract_append_skip _ _ _ _ (by decide)]
  rw [extract_append_skip _ _ _ _ (by decide)]
  rw [extract_append_skip _ _ _ _ (by decide)]
  rw [extract_append_skip _ _ _ _ (by decide)]
  rw [extract_append_skip _ _ _ _ (by decide)]
  rw [extract_append_skip _ _ _ _ (by decide)]
  exact extract_append_low _ _

@[simp] theorem fieldArg_mkCmd : fieldArg (mkCmd op ch code addr data data2 arg) = arg := by
  unfold fieldArg mkCmd
  rw [extract_append_skip _ _ _ _ (by decide)]
  rw [extract_append_skip _ _ _ _ (by decide)]
  rw [extract_append_skip _ _ _ _ (by decide)]
  rw [extract_append_skip _ _ _ _ (by decide)]
  rw [extract_append_skip _ _ _ _ (by decide)]
  rw [extract_append_skip _ _ _ _ (by decide)]
  rw [extract_append_skip _ _ _ _ (by decide)]
  rw [extract_append_skip _ _ _ _ (by decide)]
  exact BitVec.extractLsb'_eq_self

end

section
variable (rw : BitVec 1) (a : Addr15) (d : Word16)

@[simp] theorem frameAddr_frame : frameAddr (rw ++ a ++ d) = a := by
  unfold frameAddr
  rw [extract_append_skip _ _ _ _ (by decide)]
  exact extract_append_low _ _

@[simp] theorem frameW2_frame : frameW2 (rw ++ a ++ d) = d := extract_append_low _ _

@[simp] theorem frameIsRead_frame : frameIsRead (rw ++ a ++ d) = rw.getLsbD 0 := by
  unfold frameIsRead
  rw [BitVec.getLsbD_append, if_neg (by decide), BitVec.getLsbD_append, if_neg (by decide)]

/-- `w1` of a frame is its first word (R66). -/
@[simp] theorem frameW1_frameOf (w1 w2 : Word16) : frameW1 (frameOf w1 w2) = w1 := by
  unfold frameW1 frameOf
  rw [extract_append_skip _ _ _ _ (by decide)]
  exact BitVec.extractLsb'_eq_self

/-- `w2` of a frame is its second word (R66). -/
@[simp] theorem frameW2_frameOf (w1 w2 : Word16) : frameW2 (frameOf w1 w2) = w2 := extract_append_low _ _

end

/-- A word the encoder made, whose op the opcode map knows, decodes to what the map says (R62, R70). -/
theorem decodeCommand_mkCmd (op : BitVec 4) (ch : Chan) (code : BitVec 3) (addr data data2 : Word16) (arg : Freq64)
    (i : Instr) (h : opcodeMap (mkCmd op ch code addr data data2 arg) = some i) :
    decodeCommand (mkCmd op ch code addr data data2 arg) = .instr i := by
  simp [decodeCommand, h]

end Sys2Proof
end

