-- ==== Sys2Proof/Laws/State.lean ====
section
/-! SUPPORT. One lemma per field per update of the state, true by rfl: no later proof unfolds a record update. -/

namespace Sys2Proof.Machine

/-! ## `State.emit` -/

@[simp] theorem State.emit_trig (e : Event) (s : State) : (s.emit e).trig = s.trig := rfl
@[simp] theorem State.emit_csN (e : Event) (s : State) : (s.emit e).csN = s.csN := rfl
@[simp] theorem State.emit_fclk (e : Event) (s : State) : (s.emit e).fclk = s.fclk := rfl
@[simp] theorem State.emit_lastError (e : Event) (s : State) : (s.emit e).lastError = s.lastError := rfl
@[simp] theorem State.emit_fault (e : Event) (s : State) : (s.emit e).fault = s.fault := rfl
@[simp] theorem State.emit_busy (e : Event) (s : State) : (s.emit e).busy = s.busy := rfl
@[simp] theorem State.emit_hist (e : Event) (s : State) : (s.emit e).hist = s.hist ++ [e] := rfl
@[simp] theorem State.emit_rsp (e : Event) (s : State) : (s.emit e).rsp = s.rsp := rfl
@[simp] theorem State.emit_seq (e : Event) (s : State) : (s.emit e).seq = s.seq := rfl
@[simp] theorem State.emit_cfg (e : Event) (s : State) : (s.emit e).cfg = s.cfg := rfl
@[simp] theorem State.emit_requests (e : Event) (s : State) : (s.emit e).requests = s.requests := rfl
@[simp] theorem State.emit_chipIn (e : Event) (s : State) : (s.emit e).chipIn = s.chipIn := rfl
@[simp] theorem State.emit_draws (e : Event) (s : State) : (s.emit e).draws = s.draws := rfl

/-! ## `State.waitMs` -/

@[simp] theorem State.waitMs_trig (t : Nat) (s : State) : (s.waitMs t).trig = s.trig := rfl
@[simp] theorem State.waitMs_csN (t : Nat) (s : State) : (s.waitMs t).csN = s.csN := rfl
@[simp] theorem State.waitMs_fclk (t : Nat) (s : State) : (s.waitMs t).fclk = s.fclk := rfl
@[simp] theorem State.waitMs_lastError (t : Nat) (s : State) : (s.waitMs t).lastError = s.lastError := rfl
@[simp] theorem State.waitMs_fault (t : Nat) (s : State) : (s.waitMs t).fault = s.fault := rfl
@[simp] theorem State.waitMs_busy (t : Nat) (s : State) : (s.waitMs t).busy = s.busy := rfl
@[simp] theorem State.waitMs_hist (t : Nat) (s : State) : (s.waitMs t).hist = s.hist ++ [.wait t] := rfl
@[simp] theorem State.waitMs_rsp (t : Nat) (s : State) : (s.waitMs t).rsp = s.rsp := rfl
@[simp] theorem State.waitMs_seq (t : Nat) (s : State) : (s.waitMs t).seq = s.seq := rfl
@[simp] theorem State.waitMs_cfg (t : Nat) (s : State) : (s.waitMs t).cfg = s.cfg := rfl
@[simp] theorem State.waitMs_requests (t : Nat) (s : State) : (s.waitMs t).requests = s.requests := rfl
@[simp] theorem State.waitMs_chipIn (t : Nat) (s : State) : (s.waitMs t).chipIn = s.chipIn := rfl
@[simp] theorem State.waitMs_draws (t : Nat) (s : State) : (s.waitMs t).draws = s.draws := rfl

/-! ## `State.setCs` -/

@[simp] theorem State.setCs_trig (l : Level) (s : State) : (s.setCs l).trig = s.trig := rfl
@[simp] theorem State.setCs_csN (l : Level) (s : State) : (s.setCs l).csN = l := rfl
@[simp] theorem State.setCs_fclk (l : Level) (s : State) : (s.setCs l).fclk = s.fclk := rfl
@[simp] theorem State.setCs_lastError (l : Level) (s : State) : (s.setCs l).lastError = s.lastError := rfl
@[simp] theorem State.setCs_fault (l : Level) (s : State) : (s.setCs l).fault = s.fault := rfl
@[simp] theorem State.setCs_busy (l : Level) (s : State) : (s.setCs l).busy = s.busy := rfl
@[simp] theorem State.setCs_hist (l : Level) (s : State) : (s.setCs l).hist = s.hist ++ [.cs l] := rfl
@[simp] theorem State.setCs_rsp (l : Level) (s : State) : (s.setCs l).rsp = s.rsp := rfl
@[simp] theorem State.setCs_seq (l : Level) (s : State) : (s.setCs l).seq = s.seq := rfl
@[simp] theorem State.setCs_cfg (l : Level) (s : State) : (s.setCs l).cfg = s.cfg := rfl
@[simp] theorem State.setCs_requests (l : Level) (s : State) : (s.setCs l).requests = s.requests := rfl
@[simp] theorem State.setCs_chipIn (l : Level) (s : State) : (s.setCs l).chipIn = s.chipIn := rfl
@[simp] theorem State.setCs_draws (l : Level) (s : State) : (s.setCs l).draws = s.draws := rfl

/-! ## `State.setTrig` -/

@[simp] theorem State.setTrig_trig (l : Level) (s : State) : (s.setTrig l).trig = l := rfl
@[simp] theorem State.setTrig_csN (l : Level) (s : State) : (s.setTrig l).csN = s.csN := rfl
@[simp] theorem State.setTrig_fclk (l : Level) (s : State) : (s.setTrig l).fclk = s.fclk := rfl
@[simp] theorem State.setTrig_lastError (l : Level) (s : State) : (s.setTrig l).lastError = s.lastError := rfl
@[simp] theorem State.setTrig_fault (l : Level) (s : State) : (s.setTrig l).fault = s.fault := rfl
@[simp] theorem State.setTrig_busy (l : Level) (s : State) : (s.setTrig l).busy = s.busy := rfl
@[simp] theorem State.setTrig_hist (l : Level) (s : State) : (s.setTrig l).hist = s.hist ++ [.trig l] := rfl
@[simp] theorem State.setTrig_rsp (l : Level) (s : State) : (s.setTrig l).rsp = s.rsp := rfl
@[simp] theorem State.setTrig_seq (l : Level) (s : State) : (s.setTrig l).seq = s.seq := rfl
@[simp] theorem State.setTrig_cfg (l : Level) (s : State) : (s.setTrig l).cfg = s.cfg := rfl
@[simp] theorem State.setTrig_requests (l : Level) (s : State) : (s.setTrig l).requests = s.requests := rfl
@[simp] theorem State.setTrig_chipIn (l : Level) (s : State) : (s.setTrig l).chipIn = s.chipIn := rfl
@[simp] theorem State.setTrig_draws (l : Level) (s : State) : (s.setTrig l).draws = s.draws := rfl

/-! ## `State.takeRx` -/

@[simp] theorem State.takeRx_trig (s : State) : (s.takeRx).trig = s.trig := rfl
@[simp] theorem State.takeRx_csN (s : State) : (s.takeRx).csN = s.csN := rfl
@[simp] theorem State.takeRx_fclk (s : State) : (s.takeRx).fclk = s.fclk := rfl
@[simp] theorem State.takeRx_lastError (s : State) : (s.takeRx).lastError = s.lastError := rfl
@[simp] theorem State.takeRx_fault (s : State) : (s.takeRx).fault = s.fault := rfl
@[simp] theorem State.takeRx_busy (s : State) : (s.takeRx).busy = s.busy := rfl
@[simp] theorem State.takeRx_hist (s : State) : (s.takeRx).hist = s.hist := rfl
@[simp] theorem State.takeRx_rsp (s : State) : (s.takeRx).rsp = s.rsp := rfl
@[simp] theorem State.takeRx_seq (s : State) : (s.takeRx).seq = s.seq := rfl
@[simp] theorem State.takeRx_cfg (s : State) : (s.takeRx).cfg = s.cfg := rfl
@[simp] theorem State.takeRx_requests (s : State) : (s.takeRx).requests = s.requests := rfl
@[simp] theorem State.takeRx_chipIn (s : State) : (s.takeRx).chipIn = s.chipIn.drop 1 := rfl
@[simp] theorem State.takeRx_draws (s : State) : (s.takeRx).draws = s.draws + 1 := rfl

/-! ## `State.accept` -/

@[simp] theorem State.accept_trig (s : State) : (s.accept).trig = s.trig := rfl
@[simp] theorem State.accept_csN (s : State) : (s.accept).csN = s.csN := rfl
@[simp] theorem State.accept_fclk (s : State) : (s.accept).fclk = s.fclk := rfl
@[simp] theorem State.accept_lastError (s : State) : (s.accept).lastError = s.lastError := rfl
@[simp] theorem State.accept_fault (s : State) : (s.accept).fault = s.fault := rfl
@[simp] theorem State.accept_busy (s : State) : (s.accept).busy = true := rfl
@[simp] theorem State.accept_hist (s : State) : (s.accept).hist = s.hist := rfl
@[simp] theorem State.accept_rsp (s : State) : (s.accept).rsp = none := rfl
@[simp] theorem State.accept_seq (s : State) : (s.accept).seq = s.seq := rfl
@[simp] theorem State.accept_cfg (s : State) : (s.accept).cfg = s.cfg := rfl
@[simp] theorem State.accept_requests (s : State) : (s.accept).requests = s.requests := rfl
@[simp] theorem State.accept_chipIn (s : State) : (s.accept).chipIn = s.chipIn := rfl
@[simp] theorem State.accept_draws (s : State) : (s.accept).draws = s.draws := rfl

/-! ## `State.respond` -/

@[simp] theorem State.respond_trig (r : Response) (s : State) : (s.respond r).trig = s.trig := rfl
@[simp] theorem State.respond_csN (r : Response) (s : State) : (s.respond r).csN = s.csN := rfl
@[simp] theorem State.respond_fclk (r : Response) (s : State) : (s.respond r).fclk = s.fclk := rfl
@[simp] theorem State.respond_lastError (r : Response) (s : State) : (s.respond r).lastError = s.lastError := rfl
@[simp] theorem State.respond_fault (r : Response) (s : State) : (s.respond r).fault = s.fault := rfl
@[simp] theorem State.respond_busy (r : Response) (s : State) : (s.respond r).busy = false := rfl
@[simp] theorem State.respond_hist (r : Response) (s : State) : (s.respond r).hist = s.hist := rfl
@[simp] theorem State.respond_rsp (r : Response) (s : State) : (s.respond r).rsp = some r := rfl
@[simp] theorem State.respond_seq (r : Response) (s : State) : (s.respond r).seq = s.seq := rfl
@[simp] theorem State.respond_cfg (r : Response) (s : State) : (s.respond r).cfg = s.cfg := rfl
@[simp] theorem State.respond_requests (r : Response) (s : State) : (s.respond r).requests = s.requests := rfl
@[simp] theorem State.respond_chipIn (r : Response) (s : State) : (s.respond r).chipIn = s.chipIn := rfl
@[simp] theorem State.respond_draws (r : Response) (s : State) : (s.respond r).draws = s.draws := rfl

/-! ## `State.raiseFault` -/

@[simp] theorem State.raiseFault_trig (k : FaultKind) (s : State) : (s.raiseFault k).trig = s.trig := rfl
@[simp] theorem State.raiseFault_csN (k : FaultKind) (s : State) : (s.raiseFault k).csN = s.csN := rfl
@[simp] theorem State.raiseFault_fclk (k : FaultKind) (s : State) : (s.raiseFault k).fclk = s.fclk := rfl
@[simp] theorem State.raiseFault_lastError (k : FaultKind) (s : State) : (s.raiseFault k).lastError = s.lastError := rfl
@[simp] theorem State.raiseFault_fault (k : FaultKind) (s : State) : (s.raiseFault k).fault = s.fault ||| k.mask := rfl
@[simp] theorem State.raiseFault_busy (k : FaultKind) (s : State) : (s.raiseFault k).busy = false := rfl
@[simp] theorem State.raiseFault_hist (k : FaultKind) (s : State) : (s.raiseFault k).hist = s.hist := rfl
@[simp] theorem State.raiseFault_rsp (k : FaultKind) (s : State) : (s.raiseFault k).rsp = some { status := k.status } := rfl
@[simp] theorem State.raiseFault_seq (k : FaultKind) (s : State) : (s.raiseFault k).seq = s.seq := rfl
@[simp] theorem State.raiseFault_cfg (k : FaultKind) (s : State) : (s.raiseFault k).cfg = s.cfg := rfl
@[simp] theorem State.raiseFault_requests (k : FaultKind) (s : State) : (s.raiseFault k).requests = s.requests := rfl
@[simp] theorem State.raiseFault_chipIn (k : FaultKind) (s : State) : (s.raiseFault k).chipIn = s.chipIn := rfl
@[simp] theorem State.raiseFault_draws (k : FaultKind) (s : State) : (s.raiseFault k).draws = s.draws := rfl

/-! ## `State.recordError` -/

@[simp] theorem State.recordError_trig (c : BitVec 3) (s : State) : (s.recordError c).trig = s.trig := rfl
@[simp] theorem State.recordError_csN (c : BitVec 3) (s : State) : (s.recordError c).csN = s.csN := rfl
@[simp] theorem State.recordError_fclk (c : BitVec 3) (s : State) : (s.recordError c).fclk = s.fclk := rfl
@[simp] theorem State.recordError_lastError (c : BitVec 3) (s : State) : (s.recordError c).lastError = c := rfl
@[simp] theorem State.recordError_fault (c : BitVec 3) (s : State) : (s.recordError c).fault = s.fault := rfl
@[simp] theorem State.recordError_busy (c : BitVec 3) (s : State) : (s.recordError c).busy = s.busy := rfl
@[simp] theorem State.recordError_hist (c : BitVec 3) (s : State) : (s.recordError c).hist = s.hist := rfl
@[simp] theorem State.recordError_rsp (c : BitVec 3) (s : State) : (s.recordError c).rsp = s.rsp := rfl
@[simp] theorem State.recordError_seq (c : BitVec 3) (s : State) : (s.recordError c).seq = s.seq := rfl
@[simp] theorem State.recordError_cfg (c : BitVec 3) (s : State) : (s.recordError c).cfg = s.cfg := rfl
@[simp] theorem State.recordError_requests (c : BitVec 3) (s : State) : (s.recordError c).requests = s.requests := rfl
@[simp] theorem State.recordError_chipIn (c : BitVec 3) (s : State) : (s.recordError c).chipIn = s.chipIn := rfl
@[simp] theorem State.recordError_draws (c : BitVec 3) (s : State) : (s.recordError c).draws = s.draws := rfl

/-! ## `State.invalidParameter` -/

@[simp] theorem State.invalidParameter_trig (s : State) : (s.invalidParameter).trig = s.trig := rfl
@[simp] theorem State.invalidParameter_csN (s : State) : (s.invalidParameter).csN = s.csN := rfl
@[simp] theorem State.invalidParameter_fclk (s : State) : (s.invalidParameter).fclk = s.fclk := rfl
@[simp] theorem State.invalidParameter_lastError (s : State) : (s.invalidParameter).lastError = errInvalidParameter := rfl
@[simp] theorem State.invalidParameter_fault (s : State) : (s.invalidParameter).fault = s.fault := rfl
@[simp] theorem State.invalidParameter_busy (s : State) : (s.invalidParameter).busy = false := rfl
@[simp] theorem State.invalidParameter_hist (s : State) : (s.invalidParameter).hist = s.hist := rfl
@[simp] theorem State.invalidParameter_rsp (s : State) : (s.invalidParameter).rsp = some { status := .invalidParameter } := rfl
@[simp] theorem State.invalidParameter_seq (s : State) : (s.invalidParameter).seq = s.seq := rfl
@[simp] theorem State.invalidParameter_cfg (s : State) : (s.invalidParameter).cfg = s.cfg := rfl
@[simp] theorem State.invalidParameter_requests (s : State) : (s.invalidParameter).requests = s.requests := rfl
@[simp] theorem State.invalidParameter_chipIn (s : State) : (s.invalidParameter).chipIn = s.chipIn := rfl
@[simp] theorem State.invalidParameter_draws (s : State) : (s.invalidParameter).draws = s.draws := rfl

/-! ## `State.writeFclk` -/

@[simp] theorem State.writeFclk_trig (hz : BitVec 32) (s : State) : (s.writeFclk hz).trig = s.trig := rfl
@[simp] theorem State.writeFclk_csN (hz : BitVec 32) (s : State) : (s.writeFclk hz).csN = s.csN := rfl
@[simp] theorem State.writeFclk_fclk (hz : BitVec 32) (s : State) : (s.writeFclk hz).fclk = hz := rfl
@[simp] theorem State.writeFclk_lastError (hz : BitVec 32) (s : State) : (s.writeFclk hz).lastError = s.lastError := rfl
@[simp] theorem State.writeFclk_fault (hz : BitVec 32) (s : State) : (s.writeFclk hz).fault = s.fault := rfl
@[simp] theorem State.writeFclk_busy (hz : BitVec 32) (s : State) : (s.writeFclk hz).busy = s.busy := rfl
@[simp] theorem State.writeFclk_hist (hz : BitVec 32) (s : State) : (s.writeFclk hz).hist = s.hist := rfl
@[simp] theorem State.writeFclk_rsp (hz : BitVec 32) (s : State) : (s.writeFclk hz).rsp = s.rsp := rfl
@[simp] theorem State.writeFclk_seq (hz : BitVec 32) (s : State) : (s.writeFclk hz).seq = s.seq := rfl
@[simp] theorem State.writeFclk_cfg (hz : BitVec 32) (s : State) : (s.writeFclk hz).cfg = s.cfg := rfl
@[simp] theorem State.writeFclk_requests (hz : BitVec 32) (s : State) : (s.writeFclk hz).requests = s.requests := rfl
@[simp] theorem State.writeFclk_chipIn (hz : BitVec 32) (s : State) : (s.writeFclk hz).chipIn = s.chipIn := rfl
@[simp] theorem State.writeFclk_draws (hz : BitVec 32) (s : State) : (s.writeFclk hz).draws = s.draws := rfl

/-! ## `State.applyReset` -/

@[simp] theorem State.applyReset_trig (s : State) : (s.applyReset).trig = true := rfl
@[simp] theorem State.applyReset_csN (s : State) : (s.applyReset).csN = true := rfl
@[simp] theorem State.applyReset_fclk (s : State) : (s.applyReset).fclk = BitVec.ofNat 32 s.cfg.fclkReset := rfl
@[simp] theorem State.applyReset_lastError (s : State) : (s.applyReset).lastError = 0 := rfl
@[simp] theorem State.applyReset_fault (s : State) : (s.applyReset).fault = 0 := rfl
@[simp] theorem State.applyReset_busy (s : State) : (s.applyReset).busy = false := rfl
@[simp] theorem State.applyReset_hist (s : State) : (s.applyReset).hist = [.cs true, .trig true] := rfl
@[simp] theorem State.applyReset_rsp (s : State) : (s.applyReset).rsp = none := rfl
@[simp] theorem State.applyReset_seq (s : State) : (s.applyReset).seq = none := rfl
@[simp] theorem State.applyReset_cfg (s : State) : (s.applyReset).cfg = s.cfg := rfl
@[simp] theorem State.applyReset_requests (s : State) : (s.applyReset).requests = s.requests := rfl
@[simp] theorem State.applyReset_chipIn (s : State) : (s.applyReset).chipIn = s.chipIn := rfl
@[simp] theorem State.applyReset_draws (s : State) : (s.applyReset).draws = s.draws := rfl

/-! ## `State.setSeq` -/

@[simp] theorem State.setSeq_trig (fl : Option Flight) (s : State) : (s.setSeq fl).trig = s.trig := rfl
@[simp] theorem State.setSeq_csN (fl : Option Flight) (s : State) : (s.setSeq fl).csN = s.csN := rfl
@[simp] theorem State.setSeq_fclk (fl : Option Flight) (s : State) : (s.setSeq fl).fclk = s.fclk := rfl
@[simp] theorem State.setSeq_lastError (fl : Option Flight) (s : State) : (s.setSeq fl).lastError = s.lastError := rfl
@[simp] theorem State.setSeq_fault (fl : Option Flight) (s : State) : (s.setSeq fl).fault = s.fault := rfl
@[simp] theorem State.setSeq_busy (fl : Option Flight) (s : State) : (s.setSeq fl).busy = s.busy := rfl
@[simp] theorem State.setSeq_hist (fl : Option Flight) (s : State) : (s.setSeq fl).hist = s.hist := rfl
@[simp] theorem State.setSeq_rsp (fl : Option Flight) (s : State) : (s.setSeq fl).rsp = s.rsp := rfl
@[simp] theorem State.setSeq_seq (fl : Option Flight) (s : State) : (s.setSeq fl).seq = fl := rfl
@[simp] theorem State.setSeq_cfg (fl : Option Flight) (s : State) : (s.setSeq fl).cfg = s.cfg := rfl
@[simp] theorem State.setSeq_requests (fl : Option Flight) (s : State) : (s.setSeq fl).requests = s.requests := rfl
@[simp] theorem State.setSeq_chipIn (fl : Option Flight) (s : State) : (s.setSeq fl).chipIn = s.chipIn := rfl
@[simp] theorem State.setSeq_draws (fl : Option Flight) (s : State) : (s.setSeq fl).draws = s.draws := rfl

/-! ## `State.withRequests` -/

@[simp] theorem State.withRequests_trig (rs : List Request) (s : State) : (s.withRequests rs).trig = s.trig := rfl
@[simp] theorem State.withRequests_csN (rs : List Request) (s : State) : (s.withRequests rs).csN = s.csN := rfl
@[simp] theorem State.withRequests_fclk (rs : List Request) (s : State) : (s.withRequests rs).fclk = s.fclk := rfl
@[simp] theorem State.withRequests_lastError (rs : List Request) (s : State) : (s.withRequests rs).lastError = s.lastError := rfl
@[simp] theorem State.withRequests_fault (rs : List Request) (s : State) : (s.withRequests rs).fault = s.fault := rfl
@[simp] theorem State.withRequests_busy (rs : List Request) (s : State) : (s.withRequests rs).busy = s.busy := rfl
@[simp] theorem State.withRequests_hist (rs : List Request) (s : State) : (s.withRequests rs).hist = s.hist := rfl
@[simp] theorem State.withRequests_rsp (rs : List Request) (s : State) : (s.withRequests rs).rsp = s.rsp := rfl
@[simp] theorem State.withRequests_seq (rs : List Request) (s : State) : (s.withRequests rs).seq = s.seq := rfl
@[simp] theorem State.withRequests_cfg (rs : List Request) (s : State) : (s.withRequests rs).cfg = s.cfg := rfl
@[simp] theorem State.withRequests_requests (rs : List Request) (s : State) : (s.withRequests rs).requests = rs := rfl
@[simp] theorem State.withRequests_chipIn (rs : List Request) (s : State) : (s.withRequests rs).chipIn = s.chipIn := rfl
@[simp] theorem State.withRequests_draws (rs : List Request) (s : State) : (s.withRequests rs).draws = s.draws := rfl

/-! ## `State.offerNext` -/

@[simp] theorem State.offerNext_trig (w : CodeWord) (s : State) : (s.offerNext w).trig = s.trig := rfl
@[simp] theorem State.offerNext_csN (w : CodeWord) (s : State) : (s.offerNext w).csN = s.csN := rfl
@[simp] theorem State.offerNext_fclk (w : CodeWord) (s : State) : (s.offerNext w).fclk = s.fclk := rfl
@[simp] theorem State.offerNext_lastError (w : CodeWord) (s : State) : (s.offerNext w).lastError = s.lastError := rfl
@[simp] theorem State.offerNext_fault (w : CodeWord) (s : State) : (s.offerNext w).fault = s.fault := rfl
@[simp] theorem State.offerNext_busy (w : CodeWord) (s : State) : (s.offerNext w).busy = false := rfl
@[simp] theorem State.offerNext_hist (w : CodeWord) (s : State) : (s.offerNext w).hist = s.hist := rfl
@[simp] theorem State.offerNext_rsp (w : CodeWord) (s : State) : (s.offerNext w).rsp = s.rsp := rfl
@[simp] theorem State.offerNext_seq (w : CodeWord) (s : State) : (s.offerNext w).seq = none := rfl
@[simp] theorem State.offerNext_cfg (w : CodeWord) (s : State) : (s.offerNext w).cfg = s.cfg := rfl
@[simp] theorem State.offerNext_requests (w : CodeWord) (s : State) : (s.offerNext w).requests = .offer w :: s.requests := rfl
@[simp] theorem State.offerNext_chipIn (w : CodeWord) (s : State) : (s.offerNext w).chipIn = s.chipIn := rfl
@[simp] theorem State.offerNext_draws (w : CodeWord) (s : State) : (s.offerNext w).draws = s.draws := rfl

end Sys2Proof.Machine
end

