-- ==== Sys2Proof/Laws/Ops.lean ====
section
/-! SUPPORT. For each shared operation, one lemma that says everything it does. -/

namespace Sys2Proof.Machine

/-- The chip's answers from a state that has already taken `n` of them. -/
theorem State.rx_of_taken {s t : State} {n : Nat} (hc : t.chipIn = s.chipIn.drop n) (hd : t.draws = s.draws + n)
    (k : Nat) : t.rx k = s.rx (n + k) := by
  simp [State.rx, hc, hd, Nat.add_assoc]

/-- An operation that touches neither the lined-up answers nor their count leaves the chip's answers as they are. -/
theorem State.rx_congr {s t : State} (hc : t.chipIn = s.chipIn) (hd : t.draws = s.draws) (k : Nat) :
    t.rx k = s.rx k := by
  simp [State.rx, hc, hd]

@[simp] theorem State.rx_accept (s : State) (k : Nat) : s.accept.rx k = s.rx k := rfl
@[simp] theorem State.rx_setTrig (s : State) (l : Level) (k : Nat) : (s.setTrig l).rx k = s.rx k := rfl
@[simp] theorem State.rx_setCs (s : State) (l : Level) (k : Nat) : (s.setCs l).rx k = s.rx k := rfl
@[simp] theorem State.rx_waitMs (s : State) (t : Nat) (k : Nat) : (s.waitMs t).rx k = s.rx k := rfl
@[simp] theorem State.rx_setSeq (s : State) (fl : Option Flight) (k : Nat) : (s.setSeq fl).rx k = s.rx k := rfl

/-- One exchange: the answer, the event, one answer taken. -/
theorem State.exchange_spec (tx : Word16) (s : State) :
    s.exchange tx =
      (s.rx 0, { s with hist := s.hist ++ [.xchg tx (s.rx 0)], chipIn := s.chipIn.drop 1, draws := s.draws + 1 }) :=
  rfl

/-- `Txn`: both answers, its five events, two answers taken, the chip deselected. -/
theorem State.txn_spec (w1 w2 : Word16) (s : State) :
    s.txn w1 w2 =
      ((s.rx 0, s.rx 1),
        { s with
          csN := true
          hist := s.hist ++ txnEvents s.cfg w1 w2 (s.rx 0) (s.rx 1)
          chipIn := s.chipIn.drop 2
          draws := s.draws + 2 }) := by
  simp [State.txn, State.exchange_spec, State.setCs, State.waitMs, State.emit, txnEvents, State.rx]

/-- `MemWrite`: the echo, its transaction. -/
theorem State.memWrite_spec (a d : Word16) (s : State) :
    s.memWrite a d =
      (s.rx 1,
        { s with
          csN := true
          hist := s.hist ++ writeEvents s.cfg a d (s.rx 0) (s.rx 1)
          chipIn := s.chipIn.drop 2
          draws := s.draws + 2 }) := by
  simp [State.memWrite, State.txn_spec, writeEvents]

/-- `MemRead`: the word, its transaction. -/
theorem State.memRead_spec (a : Word16) (s : State) :
    s.memRead a =
      (s.rx 1,
        { s with
          csN := true
          hist := s.hist ++ readEvents s.cfg a (s.rx 0) (s.rx 1)
          chipIn := s.chipIn.drop 2
          draws := s.draws + 2 }) := by
  simp [State.memRead, State.txn_spec, readEvents]

/-- A write to the pattern-status register. -/
theorem State.writePatStatus_spec (v : Word16) (s : State) :
    s.writePatStatus v =
      { s with
        csN := true
        hist := s.hist ++ writeEvents s.cfg (addr16 s.cfg.aPatStatus) v (s.rx 0) (s.rx 1)
        chipIn := s.chipIn.drop 2
        draws := s.draws + 2 } := by
  simp [State.writePatStatus, State.memWrite_spec]

/-- `EnsureRun`: its events and the answers it takes, in both branches. -/
theorem State.ensureRun_spec (s : State) :
    s.ensureRun =
      { s with
        csN := true
        hist := s.hist ++ (ensureEvents s 0).1
        chipIn := s.chipIn.drop (ensureEvents s 0).2
        draws := s.draws + (ensureEvents s 0).2 } := by
  have hr : ∀ k, (s.memRead (addr16 s.cfg.aPatStatus)).2.rx k = s.rx (2 + k) := fun k =>
    State.rx_of_taken (by simp [State.memRead_spec]) (by simp [State.memRead_spec]) k
  simp only [State.memRead_spec] at hr
  by_cases h : runBitSet s.cfg (s.rx 1) = true <;>
    simp [State.ensureRun, State.memRead_spec, State.writePatStatus_spec, ensureEvents, h, State.waitMs, State.emit, hr]

/-- `StartSeq`: its events, the answers it takes, the trigger low. -/
theorem State.startSeq_spec (s : State) :
    s.startSeq =
      { s with
        trig := false
        csN := if s.cfg.runVariant then true else s.csN
        hist := s.hist ++ (startEvents s 0).1
        chipIn := s.chipIn.drop (startEvents s 0).2
        draws := s.draws + (startEvents s 0).2 } := by
  by_cases h : s.cfg.runVariant <;>
    simp [State.startSeq, State.ensureRun_spec, startEvents, h, State.setTrig]

/-- `StopSeq`: the trigger high. -/
theorem State.stopSeq_spec (s : State) :
    s.stopSeq = { s with trig := true, hist := s.hist ++ [.trig true] } := rfl

/-- A state that took `n` answers sees the events of `EnsureRun` from there. -/
theorem ensureEvents_of_taken {s t : State} {n : Nat} (hg : t.cfg = s.cfg) (hc : t.chipIn = s.chipIn.drop n)
    (hd : t.draws = s.draws + n) (k : Nat) : ensureEvents t k = ensureEvents s (n + k) := by
  simp [ensureEvents, hg, State.rx_of_taken hc hd, Nat.add_assoc]

/-- The same for `StartSeq`. -/
theorem startEvents_of_taken {s t : State} {n : Nat} (hg : t.cfg = s.cfg) (hc : t.chipIn = s.chipIn.drop n)
    (hd : t.draws = s.draws + n) (k : Nat) : startEvents t k = startEvents s (n + k) := by
  simp [startEvents, hg, ensureEvents_of_taken hg hc hd]

/-- The same for the `case UPD_RUN_MODE`. -/
theorem updateRunEvents_of_taken {s t : State} {n : Nat} (hg : t.cfg = s.cfg) (hc : t.chipIn = s.chipIn.drop n)
    (hd : t.draws = s.draws + n) (k : Nat) : updateRunEvents t k = updateRunEvents s (n + k) := by
  simp [updateRunEvents, hg, ensureEvents_of_taken hg hc hd, State.rx_of_taken hc hd, Nat.add_assoc]

/-- The first part of an update: stop, wait, commit. -/
theorem State.commitSeq_spec (s : State) :
    s.commitSeq =
      { s with
        trig := true
        csN := true
        hist := s.hist ++ commitEvents s
        chipIn := s.chipIn.drop 2
        draws := s.draws + 2 } := by
  simp [State.commitSeq, State.stopSeq_spec, State.waitMs, State.emit, State.memWrite_spec, commitEvents, State.rx]

/-- The `case UPD_RUN_MODE`; it leaves the chip deselected if it found it so. -/
theorem State.updateRun_spec (s : State) :
    s.updateRun =
      { s with
        csN := match s.cfg.updRunMode with
          | .none => s.csN
          | .reassert => true
          | .recheck => true
        hist := s.hist ++ (updateRunEvents s 0).1
        chipIn := s.chipIn.drop (updateRunEvents s 0).2
        draws := s.draws + (updateRunEvents s 0).2 } := by
  cases h : s.cfg.updRunMode <;>
    simp [State.updateRun, updateRunEvents, h, State.writePatStatus_spec, State.ensureRun_spec]

/-- Everything `PAT_UPDATE` does before its response. -/
theorem State.updateSeq_spec (s : State) :
    (s.commitSeq.updateRun.waitMs s.cfg.tUpd2).startSeq =
      { s with
        trig := false
        csN := true
        hist := s.hist ++ (updateEvents s).1
        chipIn := s.chipIn.drop (updateEvents s).2
        draws := s.draws + (updateEvents s).2 } := by
  have hu : ∀ k, updateRunEvents s.commitSeq k = updateRunEvents s (2 + k) := fun k =>
    updateRunEvents_of_taken (by simp [State.commitSeq_spec]) (by simp [State.commitSeq_spec])
      (by simp [State.commitSeq_spec]) k
  have hs : ∀ k, startEvents (s.commitSeq.updateRun.waitMs s.cfg.tUpd2) k =
      startEvents s (2 + (updateRunEvents s 2).2 + k) := fun k =>
    startEvents_of_taken (by simp [State.commitSeq_spec, State.updateRun_spec])
      (by simp [State.updateRun_spec, hu]; simp [State.commitSeq_spec])
      (by simp [State.updateRun_spec, hu]; simp [State.commitSeq_spec, Nat.add_assoc]) k
  rw [State.startSeq_spec, hs]
  simp only [State.updateRun_spec, hu, State.waitMs, State.emit, Nat.add_zero]
  simp only [State.commitSeq_spec]
  cases s.cfg.updRunMode <;>
    simp [updateEvents, List.append_assoc, Nat.add_assoc]

/-- Taking a fault (R191): its bit, its status, everything else of the response 0, `BUSY` low, nothing else. -/
theorem State.raiseFault_spec (k : FaultKind) (s : State) :
    s.raiseFault k = { s with fault := s.fault ||| k.mask, rsp := some { status := k.status }, busy := false } := rfl

/-- The InvalidParameter outcome (R197). -/
theorem State.invalidParameter_spec (s : State) :
    s.invalidParameter =
      { s with lastError := 7, rsp := some { status := .invalidParameter }, busy := false } := rfl

end Sys2Proof.Machine
end

