-- ==== Sys2Proof/Laws/Operands.lean ====
section
/-! SUPPORT. What the operand checks and the resolver answer, and what the checked accesses do, as statements about numbers. -/

namespace Sys2Proof.Machine

/-- The address check is a comparison with 0x007F (R193). -/
theorem addrTooHigh_iff (a : Word16) : addrTooHigh a = true ↔ 0x7F < a.toNat := by
  unfold addrTooHigh addrMax
  exact decide_eq_true_iff

/-- The channel check (R194). -/
theorem channelBad_iff (ch : Chan) : channelBad ch = true ↔ ch.toNat = 0 ∨ 4 < ch.toNat := by
  revert ch
  decide

/-- The clock check (R196). -/
theorem clockBad_iff (hz : Freq64) : clockBad hz = true ↔ hz.toNat = 0 ∨ 2 ^ 32 - 1 < hz.toNat := by
  unfold clockBad clockOf fclkMax
  exact decide_eq_true_iff

/-- The frequency check (R120). -/
theorem freqInRange_iff (f : Freq64) (fclk : BitVec 32) :
    freqInRange f fclk = true ↔ 0 ≤ f.toInt ∧ f.toInt ≤ (fclk.toNat : Int) := by
  unfold freqInRange freqOf
  exact decide_eq_true_iff

/-- A parameter address keeps its value as a 16-bit address. -/
@[simp] theorem addr16_toNat (a : Addr15) : (addr16 a).toNat = a.toNat := by
  simp only [addr16, BitVec.toNat_setWidth]
  omega

/-- A 16-bit address made from 15 bits has bit 15 clear (R67). -/
@[simp] theorem addr16_bit15 (a : Addr15) : (addr16 a).getLsbD 15 = false := by
  rw [BitVec.getLsbD]
  apply Nat.testBit_lt_two_pow
  rw [addr16_toNat]
  exact a.isLt

/-- What a well-formed configuration says of the addresses the pattern and codec commands use (R8, R89). -/
theorem Config_wf_addresses {c : Config} (h : c.wf = true) :
    (addr16 c.aPatStatus).toNat ≤ addrMax ∧ (addr16 c.aRamUpdate).toNat ≤ addrMax ∧
      (addr16 c.aDdsTwMsb).toNat ≤ addrMax ∧ (addr16 c.aDdsTwLsb).toNat ≤ addrMax := by
  unfold Config.wf at h
  rw [decide_eq_true_iff] at h
  simp only [addr16_toNat]
  exact ⟨h.1, h.2.1, h.2.2.1, h.2.2.2.1⟩

/-- `Resolve` in natural numbers, checks in the order of R100. -/
theorem resolve_spec (base : Word16) (ch : Chan) :
    resolve base ch =
      if ch.toNat = 0 ∨ 4 < ch.toNat then .faults .channelFault
      else if 0x7F < base.toNat then .faults .addrFault
      else if base.toNat < stride base * (ch.toNat - 1) then .faults .resolveFault
      else .ok (BitVec.ofNat 16 (base.toNat - stride base * (ch.toNat - 1))) := by
  unfold resolve
  simp only [channelBad_iff, addrTooHigh_iff]
  split
  · rfl
  split
  · rfl
  rename_i h1 h2
  have hs : ((ch.toNat - 1 : Nat) : Int) = (ch.toNat : Int) - 1 := by omega
  have e : (base.toNat : Int) - (stride base : Int) * ((ch.toNat : Int) - 1) =
      (base.toNat : Int) - ((stride base * (ch.toNat - 1) : Nat) : Int) := by
    push_cast [hs]
    ring
  simp only [e]
  by_cases h3 : base.toNat < stride base * (ch.toNat - 1)
  · rw [if_pos (by omega), if_pos h3]
  · rw [if_neg (by omega), if_neg h3]
    congr 1
    rw [← Int.ofNat_sub (by omega)]
    simp

/-- A checked write (R84): the fault, or one transaction and the echo. -/
theorem State.checkedWrite_spec (addr data : Word16) (s : State) :
    s.checkedWrite addr data =
      if 0x7F < addr.toNat then s.raiseFault .addrFault
      else
        { s with
          csN := true
          busy := false
          hist := s.hist ++ writeEvents s.cfg addr data (s.rx 0) (s.rx 1)
          rsp := some { d0 := s.rx 1 }
          chipIn := s.chipIn.drop 2
          draws := s.draws + 2 } := by
  simp only [State.checkedWrite, addrTooHigh_iff, State.memWrite_spec, State.respond]

/-- A checked read (R85): the fault, or one transaction and the word. -/
theorem State.checkedRead_spec (addr : Word16) (s : State) :
    s.checkedRead addr =
      if 0x7F < addr.toNat then s.raiseFault .addrFault
      else
        { s with
          csN := true
          busy := false
          hist := s.hist ++ readEvents s.cfg addr (s.rx 0) (s.rx 1)
          rsp := some { d0 := s.rx 1 }
          chipIn := s.chipIn.drop 2
          draws := s.draws + 2 } := by
  simp only [State.checkedRead, addrTooHigh_iff, State.memRead_spec, State.respond]

/-- `Split` in numbers (R122). -/
theorem splitTw_toNat (tw : TuningWord) :
    (splitTw tw).1.toNat = tw.toNat / 256 % 65536 ∧ (splitTw tw).2.toNat = tw.toNat % 256 * 256 := by
  have h : tw.toNat % 65536 &&& 255 = tw.toNat % 65536 % 256 := Nat.and_two_pow_sub_one_eq_mod _ 8
  constructor
  · simp [splitTw, Nat.shiftRight_eq_div_pow]
  · simp [splitTw, Nat.shiftLeft_eq, h]
    omega

/-- `Decode` in numbers (R123). -/
theorem decodeTw_toNat (msb lsb : Word16) : (decodeTw msb lsb).toNat = msb.toNat * 256 + lsb.toNat / 256 := by
  have e1 : (BitVec.setWidth 48 msb <<< 8).toNat = msb.toNat * 256 := by
    simp [Nat.shiftLeft_eq]
    omega
  have e2 : (BitVec.setWidth 48 lsb >>> 8).toNat = lsb.toNat / 256 := by
    simp [Nat.shiftRight_eq_div_pow]
    omega
  unfold decodeTw
  rw [BitVec.toNat_or, e1, e2]
  have := Nat.two_pow_add_eq_or_of_lt (i := 8) (b := lsb.toNat / 256) (by omega) msb.toNat
  rw [Nat.mul_comm msb.toNat]
  exact this.symm

end Sys2Proof.Machine
end

