-- ==== Sys2Proof/Laws/PerInstr.lean ====
section
/-! SUPPORT. A statement made of every instruction, one lemma per constructor: its code word is of its row of
spec/opcode_table.json. -/

namespace Sys2Proof.Laws

open Sys2Proof

/-- The three fixed fields of a command word, under the mask the table gives every command (R61). -/
theorem command_mask (c : CmdWord) (op : BitVec 4) (h : fieldOp c = op) (h0 : fieldRsv0 c = 0) (h1 : fieldRsv1 c = 0) :
    c &&& 0xF88F#128 = op.setWidth 128 := by
  subst h
  have z0 : c.getLsbD 7 = false := by
    have := congrArg (·.getLsbD 0) h0
    simpa [fieldRsv0] using this
  have z1 : ∀ k < 5, c.getLsbD (11 + k) = false := by
    intro k hk
    have := congrArg (·.getLsbD k) h1
    simpa [fieldRsv1, hk] using this
  apply BitVec.eq_of_getLsbD_eq
  intro i hi
  by_cases h16 : i < 16
  · have z11 := z1 0 (by decide)
    have z12 := z1 1 (by decide)
    have z13 := z1 2 (by decide)
    have z14 := z1 3 (by decide)
    have z15 := z1 4 (by decide)
    simp only [Nat.add_zero, Nat.reduceAdd] at z11 z12 z13 z14 z15
    interval_cases i <;> simp_all [fieldOp]
  · have hm : (0xF88F#128).getLsbD i = false := by
      rw [BitVec.getLsbD]
      apply Nat.testBit_lt_two_pow
      exact lt_of_lt_of_le (by decide : (0xF88F#128).toNat < 2 ^ 16) (Nat.pow_le_pow_right (by decide) (by omega))
    have ho : ¬ i < 4 := by omega
    rw [BitVec.getLsbD_and, hm]
    simp [fieldOp, ho]

/-- An instruction's code word has its row's width and, under the row's mask, the row's match. -/
def OpcodeRow.Statement (i : Instr) : Prop :=
  match i with
  | .regWrite _ _ => ∃ c, encode i = .cmd c ∧ c &&& 0xF88F#128 = 0x1#128
  | .regRead _ => ∃ c, encode i = .cmd c ∧ c &&& 0xF88F#128 = 0x2#128
  | .chResolve _ _ => ∃ c, encode i = .cmd c ∧ c &&& 0xF88F#128 = 0x3#128
  | .chWrite _ _ _ => ∃ c, encode i = .cmd c ∧ c &&& 0xF88F#128 = 0x4#128
  | .chRead _ _ => ∃ c, encode i = .cmd c ∧ c &&& 0xF88F#128 = 0x5#128
  | .freqEncode _ => ∃ c, encode i = .cmd c ∧ c &&& 0xF88F#128 = 0x6#128
  | .freqDecode _ _ => ∃ c, encode i = .cmd c ∧ c &&& 0xF88F#128 = 0x7#128
  | .setFreq _ => ∃ c, encode i = .cmd c ∧ c &&& 0xF88F#128 = 0x8#128
  | .getFreq => ∃ c, encode i = .cmd c ∧ c &&& 0xF88F#128 = 0x9#128
  | .setFclk _ => ∃ c, encode i = .cmd c ∧ c &&& 0xF88F#128 = 0xA#128
  | .patStop => ∃ c, encode i = .cmd c ∧ c &&& 0xF88F#128 = 0xB#128
  | .patStart => ∃ c, encode i = .cmd c ∧ c &&& 0xF88F#128 = 0xC#128
  | .patUpdate => ∃ c, encode i = .cmd c ∧ c &&& 0xF88F#128 = 0xD#128
  | .patShutdown => ∃ c, encode i = .cmd c ∧ c &&& 0xF88F#128 = 0xE#128
  | .errSet _ => ∃ c, encode i = .cmd c ∧ c &&& 0xF88F#128 = 0xF#128
  | .frameWrite _ _ => ∃ f, encode i = .frame f ∧ f &&& 0x80000000#32 = 0x00000000#32
  | .frameRead _ => ∃ f, encode i = .frame f ∧ f &&& 0x8000FFFF#32 = 0x80000000#32

theorem OpcodeRow.regWrite (addr : Word16) (data : Word16) : OpcodeRow.Statement (.regWrite addr data) :=
  ⟨_, rfl, by rw [command_mask _ 0x1 (by simp) (by simp) (by simp)]; rfl⟩

theorem OpcodeRow.regRead (addr : Word16) : OpcodeRow.Statement (.regRead addr) :=
  ⟨_, rfl, by rw [command_mask _ 0x2 (by simp) (by simp) (by simp)]; rfl⟩

theorem OpcodeRow.chResolve (base : Word16) (ch : Chan) : OpcodeRow.Statement (.chResolve base ch) :=
  ⟨_, rfl, by rw [command_mask _ 0x3 (by simp) (by simp) (by simp)]; rfl⟩

theorem OpcodeRow.chWrite (base : Word16) (ch : Chan) (data : Word16) : OpcodeRow.Statement (.chWrite base ch data) :=
  ⟨_, rfl, by rw [command_mask _ 0x4 (by simp) (by simp) (by simp)]; rfl⟩

theorem OpcodeRow.chRead (base : Word16) (ch : Chan) : OpcodeRow.Statement (.chRead base ch) :=
  ⟨_, rfl, by rw [command_mask _ 0x5 (by simp) (by simp) (by simp)]; rfl⟩

theorem OpcodeRow.freqEncode (freq : Freq64) : OpcodeRow.Statement (.freqEncode freq) :=
  ⟨_, rfl, by rw [command_mask _ 0x6 (by simp) (by simp) (by simp)]; rfl⟩

theorem OpcodeRow.freqDecode (msb : Word16) (lsb : Word16) : OpcodeRow.Statement (.freqDecode msb lsb) :=
  ⟨_, rfl, by rw [command_mask _ 0x7 (by simp) (by simp) (by simp)]; rfl⟩

theorem OpcodeRow.setFreq (freq : Freq64) : OpcodeRow.Statement (.setFreq freq) :=
  ⟨_, rfl, by rw [command_mask _ 0x8 (by simp) (by simp) (by simp)]; rfl⟩

theorem OpcodeRow.getFreq : OpcodeRow.Statement (.getFreq) :=
  ⟨_, rfl, by rw [command_mask _ 0x9 (by simp) (by simp) (by simp)]; rfl⟩

theorem OpcodeRow.setFclk (hz : Freq64) : OpcodeRow.Statement (.setFclk hz) :=
  ⟨_, rfl, by rw [command_mask _ 0xA (by simp) (by simp) (by simp)]; rfl⟩

theorem OpcodeRow.patStop : OpcodeRow.Statement (.patStop) :=
  ⟨_, rfl, by rw [command_mask _ 0xB (by simp) (by simp) (by simp)]; rfl⟩

theorem OpcodeRow.patStart : OpcodeRow.Statement (.patStart) :=
  ⟨_, rfl, by rw [command_mask _ 0xC (by simp) (by simp) (by simp)]; rfl⟩

theorem OpcodeRow.patUpdate : OpcodeRow.Statement (.patUpdate) :=
  ⟨_, rfl, by rw [command_mask _ 0xD (by simp) (by simp) (by simp)]; rfl⟩

theorem OpcodeRow.patShutdown : OpcodeRow.Statement (.patShutdown) :=
  ⟨_, rfl, by rw [command_mask _ 0xE (by simp) (by simp) (by simp)]; rfl⟩

theorem OpcodeRow.errSet (code : BitVec 3) : OpcodeRow.Statement (.errSet code) :=
  ⟨_, rfl, by rw [command_mask _ 0xF (by simp) (by simp) (by simp)]; rfl⟩

theorem OpcodeRow.frameWrite (a : Addr15) (d : Word16) : OpcodeRow.Statement (.frameWrite a d) := by
  refine ⟨_, rfl, ?_⟩
  apply BitVec.eq_of_getLsbD_eq
  intro i hi
  have hl : i < 32 := hi
  rw [BitVec.getLsbD_and]
  by_cases h : i = 31
  · subst h
    rw [show (0#1 ++ a ++ d).getLsbD 31 = false from frameIsRead_frame 0#1 a d]
    rfl
  · have : (0x80000000#32).getLsbD i = false := by interval_cases i <;> first | rfl | exact absurd rfl h
    rw [this]
    simp

theorem OpcodeRow.frameRead (a : Addr15) : OpcodeRow.Statement (.frameRead a) := by
  refine ⟨_, rfl, ?_⟩
  apply BitVec.eq_of_getLsbD_eq
  intro i hi
  have hl : i < 32 := hi
  rw [BitVec.getLsbD_and]
  by_cases h : i = 31
  · subst h
    rw [show (1#1 ++ a ++ 0#16).getLsbD 31 = true from frameIsRead_frame 1#1 a 0#16]
    rfl
  · by_cases h16 : i < 16
    · rw [BitVec.getLsbD_append, if_pos h16]
      interval_cases i <;> rfl
    · have hm : (0x8000FFFF#32).getLsbD i = false := by
        interval_cases i <;> first | rfl | exact absurd (by decide) h16 | exact absurd rfl h
      have hr : (0x80000000#32).getLsbD i = false := by
        interval_cases i <;> first | rfl | exact absurd rfl h
      rw [hm, hr, Bool.and_false]

end Sys2Proof.Laws
end

