-- ==== Sys2Proof/Laws/Sequencer.lean ====
section
/-! SUPPORT. The tick machine of Machine/Sequencer.lean: everything one tick can do, and how ticks add up. -/

namespace Sys2Proof.Machine

/-- Ticks add up. -/
theorem ticks_add (a b : Nat) (s : State) : ticks (a + b) s = ticks b (ticks a s) := by
  induction a generalizing s with
  | zero => simp [ticks]
  | succ a ih =>
    rw [show a + 1 + b = (a + b) + 1 by omega]
    simp [ticks, ih]

/-- An idle machine stays as it is (R209). -/
theorem tick_idle {s : State} (h : s.seq = none) : tick s = s := by
  simp [tick, h]

/-- The same for any number of ticks. -/
theorem ticks_idle {s : State} (h : s.seq = none) (n : Nat) : ticks n s = s := by
  induction n with
  | zero => rfl
  | succ n ih => simp [ticks, tick_idle h, ih]

/-- Everything one tick of a command can do: its end, or its next action. -/
theorem tick_cases {s : State} {fl : Flight} (h : s.seq = some fl) :
    (fl.todo = [] ∧ tick s = (finish fl s).setSeq none) ∨
      ∃ a rest, fl.todo = a :: rest ∧ tick s = s.perform a { fl with todo := rest } := by
  unfold tick
  rw [h]
  rcases fl with ⟨i, _ | ⟨a, l⟩, r⟩
  · exact .inl ⟨rfl, rfl⟩
  · exact .inr ⟨a, l, rfl, rfl⟩

/-- Everything one action can do to what a command's end rests on: it keeps `BUSY`, the response, `FCLK`, the configuration and
the offers, it only adds events, and it leaves less to do than it found. -/
theorem State.perform_spec (a : Act) (fl : Flight) (s : State) :
    ∃ fl', (s.perform a fl).seq = some fl' ∧ fl'.instr = fl.instr ∧ fl'.cost + 1 ≤ fl.cost + a.cost ∧
      (s.perform a fl).busy = s.busy ∧ (s.perform a fl).rsp = s.rsp ∧ (s.perform a fl).fclk = s.fclk ∧
      (s.perform a fl).cfg = s.cfg ∧ (s.perform a fl).requests = s.requests ∧
      s.hist <+: (s.perform a fl).hist := by
  cases a <;> simp only [State.perform]
  any_goals
    exact ⟨_, rfl, rfl, by simp [Flight.cost, Act.cost], rfl, rfl, rfl, rfl, rfl, by
      simp [State.setSeq, State.setCs, State.setTrig, State.waitMs, State.exchange, State.takeRx, State.emit]⟩
  split
  · exact ⟨_, rfl, rfl, by simp [Flight.cost, Act.cost], rfl, rfl, rfl, rfl, rfl, by simp [State.setSeq]⟩
  · exact ⟨_, rfl, rfl, by simp [Flight.cost, Act.cost, setRunActs, writeActs, txnActs]; omega, rfl, rfl, rfl, rfl, rfl,
      by simp [State.setSeq]⟩

/-- A command's end: a response, `BUSY` low, no event, the lines and the outside as they were. -/
theorem finish_spec (fl : Flight) (s : State) :
    (finish fl s).busy = false ∧ (finish fl s).rsp ≠ none ∧ (finish fl s).hist = s.hist ∧
      (finish fl s).trig = s.trig ∧ (finish fl s).csN = s.csN ∧ (finish fl s).cfg = s.cfg ∧
      (finish fl s).requests = s.requests ∧ (finish fl s).chipIn = s.chipIn ∧ (finish fl s).draws = s.draws := by
  unfold finish
  split
  · exact ⟨rfl, by simp, rfl, rfl, rfl, rfl, rfl, rfl, rfl⟩
  · exact ⟨rfl, by simp, rfl, rfl, rfl, rfl, rfl, rfl, rfl⟩
  · rename_i i _ _
    cases i <;> exact ⟨rfl, by simp [complete], rfl, rfl, rfl, rfl, rfl, rfl, rfl⟩
  · exact ⟨rfl, by simp, rfl, rfl, rfl, rfl, rfl, rfl, rfl⟩

/-- No tick changes the configuration or takes an offer. -/
theorem tick_cfg_requests (s : State) : (tick s).cfg = s.cfg ∧ (tick s).requests = s.requests := by
  cases hs : s.seq with
  | none => rw [tick_idle hs]; exact ⟨rfl, rfl⟩
  | some fl =>
    rcases tick_cases hs with ⟨_, h⟩ | ⟨a, rest, _, h⟩
    · have := finish_spec fl s
      simp [h, this]
    · obtain ⟨_, _, _, _, _, _, _, hc, hr, _⟩ := State.perform_spec a { fl with todo := rest } s
      rw [h]
      exact ⟨hc, hr⟩

/-- The same for any number of ticks. -/
theorem ticks_cfg_requests (n : Nat) (s : State) : (ticks n s).cfg = s.cfg ∧ (ticks n s).requests = s.requests := by
  induction n generalizing s with
  | zero => exact ⟨rfl, rfl⟩
  | succ n ih =>
    have h := tick_cfg_requests s
    have h' := ih (tick s)
    simp [ticks, h, h']

/-- What a command is stopped by does not depend on anything but its operands and `FCLK`. -/
theorem verdict_congr (i : Option Instr) {s t : State} (h : t.fclk = s.fclk) : verdict i t = verdict i s := by
  rcases i with _ | i
  · rfl
  · cases i <;> simp only [verdict, h]

/-- The five ticks of a transaction (R81). -/
theorem ticks_txnActs (s : State) (i : Option Instr) (w1 w2 : Word16) (rest : List Act) (rxs : List Word16) :
    ticks 5 (s.setSeq (some { instr := i, todo := txnActs s.cfg w1 w2 ++ rest, rxs := rxs })) =
      (s.txn w1 w2).2.setSeq (some { instr := i, todo := rest, rxs := (s.txn w1 w2).1.2 :: (s.txn w1 w2).1.1 :: rxs }) :=
  rfl

end Sys2Proof.Machine
end

