-- ==== Sys2Proof/Laws/Trace.lean ====
section
/-! SUPPORT. How the readings of the event history (Machine/Trace.lean) go over appended events and over one transaction. -/

namespace Sys2Proof.Machine

/-- A broken protocol stays broken. -/
@[simp] theorem Monitor.run_none (tSettle : Nat) (l : List Event) : Monitor.run tSettle none l = none := by
  cases l <;> rfl

/-- The bus monitor over appended events. -/
theorem Monitor.run_append (tSettle : Nat) (m : Option Monitor) (l k : List Event) :
    Monitor.run tSettle m (l ++ k) = Monitor.run tSettle (Monitor.run tSettle m l) k := by
  induction l generalizing m with
  | nil => cases m <;> cases k <;> rfl
  | cons e es ih =>
    cases m with
    | none => simp [Monitor.run]
    | some m => simpa [Monitor.run] using ih _

/-- One transaction with a register's address and, for a read, a zero dummy, takes the monitor from rest to rest. -/
theorem Monitor.run_txnEvents (c : Config) (w1 w2 r1 r2 : Word16) (ha : (w1 &&& 0x7FFF#16).toNat ≤ addrMax)
    (hd : w1.getLsbD 15 = true → w2 = 0) :
    Monitor.run c.tSettle (some Monitor.start) (txnEvents c w1 w2 r1 r2) = some Monitor.start := by
  have hn : ¬ (w1.getLsbD 15 = true ∧ w2 ≠ 0) := fun h => h.2 (hd h.1)
  have e1 : Monitor.next c.tSettle Monitor.start (.cs false) = some { phase := .selected, owed := 0 } := rfl
  have e2 : Monitor.next c.tSettle { phase := .selected, owed := 0 } (.xchg w1 r1) =
      some { phase := .addressed (w1.getLsbD 15), owed := 0 } := by
    simp only [Monitor.next]
    exact if_pos ha
  have e3 : Monitor.next c.tSettle { phase := .addressed (w1.getLsbD 15), owed := 0 } (.xchg w2 r2) =
      some { phase := .exchanged, owed := 0 } := by
    simp only [Monitor.next]
    exact if_neg hn
  simp only [txnEvents, Monitor.run, e1, e2, e3]
  simp [Monitor.next, Monitor.start, Monitor.run]

/-- The run-bit monitor once it has failed. -/
@[simp] theorem RunMonitor.run_none (c : Config) (l : List Event) : RunMonitor.run c none l = none := by
  cases l <;> rfl

/-- The run-bit monitor over appended events. -/
theorem RunMonitor.run_append (c : Config) (m : Option RunMonitor) (l k : List Event) :
    RunMonitor.run c m (l ++ k) = RunMonitor.run c (RunMonitor.run c m l) k := by
  induction l generalizing m with
  | nil => cases m <;> cases k <;> rfl
  | cons e es ih =>
    cases m with
    | none => simp [RunMonitor.run]
    | some m => simpa [RunMonitor.run] using ih _

/-- The transactions of a history that one more transaction ends. -/
theorem transactions_append_txnEvents (h : List Event) (c : Config) (w1 w2 r1 r2 : Word16) :
    transactions (h ++ txnEvents c w1 w2 r1 r2) = transactions h ++ [{ w1 := w1, w2 := w2, r1 := r1, r2 := r2 }] := by
  unfold transactions
  rw [List.foldl_append]
  generalize h.foldl BusView.next _ = v
  simp [txnEvents, BusView.next]

/-- `RUN_VALUE` has the run bit set (R8). -/
theorem Config_runValue_runBit (c : Config) : c.runValue.getLsbD c.runBit.val = true := by
  unfold Config.runValue
  simp

/-- The first received words aside, an event keeps what DDSC did. -/
@[simp] theorem Event.forgetRx_xchg (tx rx : Word16) : (Event.xchg tx rx).forgetRx = .xchg tx 0 := rfl

end Sys2Proof.Machine
end

