-- ==== Sys2Proof/Machine/Assembler.lean ====
section
/-! DEFINITION. The assembler syntax of 30_encoding.md R72, with the pseudo-commands of R73, and the written form of a command
word. White space and the letters' case are the model's reading (log 15). -/

namespace Sys2Proof.Machine

/-- Why a line is rejected. -/
inductive AsmError where
  | unknownMnemonic
  | operandCount
  | notANumber
  /-- "The assembler rejects an operand that does not fit its field" (R72). -/
  | doesNotFit
  deriving DecidableEq, Repr

/-- What a line assembles to: nothing (an empty line or a comment), one command, or an error. -/
inductive AsmLine where
  | empty
  | instr (i : Instr)
  | error (e : AsmError)
  deriving DecidableEq, Repr

/-! ## Characters and tokens -/

/-- White space inside a line. -/
def isBlank (c : Char) : Bool := c == ' ' || c == '\t'

/-- The text without white space at either end. -/
def trimBlanks (l : List Char) : List Char :=
  ((l.dropWhile isBlank).reverse.dropWhile isBlank).reverse

/-- The text before the comment: "`;` begins a comment" (R72). -/
def dropComment (l : List Char) : List Char := l.takeWhile (· != ';')

/-- The texts between commas, trimmed. -/
def splitCommas : List Char → List (List Char)
  | [] => [[]]
  | c :: cs =>
    if c == ',' then [] :: splitCommas cs
    else match splitCommas cs with
      | [] => [[c]]
      | t :: ts => (c :: t) :: ts

/-- The sixteen digits in the order of their values, as the written form of R72 spells them. -/
def digitChars : List Char :=
  ['0', '1', '2', '3', '4', '5', '6', '7', '8', '9', 'A', 'B', 'C', 'D', 'E', 'F']

/-- The value of a digit is its place among the sixteen; small letters count as capitals (log 15). -/
def digitVal (c : Char) : Option Nat := digitChars.idxOf? c.toUpper

/-- A digit string in a base; `none` for a character that is no digit of it. -/
def digitsVal (base : Nat) : List Char → Nat → Option Nat
  | [], acc => some acc
  | c :: cs, acc =>
    match digitVal c with
    | some d => if d < base then digitsVal base cs (acc * base + d) else none
    | none => none

/-- An unsigned number: "a decimal or `0x` hexadecimal integer" (R72). -/
def parseNat (l : List Char) : Option Nat :=
  match l with
  | [] => none
  | '0' :: 'x' :: c :: cs => digitsVal 16 (c :: cs) 0
  | c :: cs => digitsVal 10 (c :: cs) 0

/-- A signed number: "`<freq>` may be negative" (R72). -/
def parseInt (l : List Char) : Option Int :=
  match l with
  | '-' :: rest => (parseNat rest).map fun n => -(n : Int)
  | _ => (parseNat l).map fun n => (n : Int)

/-! ## Operands -/

/-- An operand of an unsigned field of `n` bits. -/
def operandU (n : Nat) (l : List Char) (k : BitVec n → AsmLine) : AsmLine :=
  match parseNat l with
  | none => .error .notANumber
  | some v => if v < 2 ^ n then k (BitVec.ofNat n v) else .error .doesNotFit

/-- The signed 64-bit operand `<freq>`. -/
def operandFreq (l : List Char) (k : Freq64 → AsmLine) : AsmLine :=
  match parseInt l with
  | none => .error .notANumber
  | some v => if -(2 ^ 63) ≤ v ∧ v < 2 ^ 63 then k (BitVec.ofInt 64 v) else .error .doesNotFit

/-- A line with no operand. -/
def noOperand (ops : List (List Char)) (i : Instr) : AsmLine :=
  match ops with
  | [] => .instr i
  | _ => .error .operandCount

/-- A line with one operand. -/
def oneOperand (ops : List (List Char)) (k : List Char → AsmLine) : AsmLine :=
  match ops with
  | [a] => k a
  | _ => .error .operandCount

/-- A line with two operands. -/
def twoOperands (ops : List (List Char)) (k : List Char → List Char → AsmLine) : AsmLine :=
  match ops with
  | [a, b] => k a b
  | _ => .error .operandCount

/-- A line with three operands. -/
def threeOperands (ops : List (List Char)) (k : List Char → List Char → List Char → AsmLine) : AsmLine :=
  match ops with
  | [a, b, c] => k a b c
  | _ => .error .operandCount

/-- A pseudo-command's setter (R73). -/
def asmSet (c : Config) (p : Property) (ops : List (List Char)) : AsmLine :=
  twoOperands ops fun a b => operandU 3 a fun ch => operandU 16 b fun v => .instr ((Pseudo.set p ch v).expand c)

/-- A pseudo-command's getter (R73). -/
def asmGet (c : Config) (p : Property) (ops : List (List Char)) : AsmLine :=
  oneOperand ops fun a => operandU 3 a fun ch => .instr ((Pseudo.get p ch).expand c)

/-! ## Lines -/

/-- A mnemonic with its operands (R72, R73). -/
def asmOp (c : Config) (m : String) (ops : List (List Char)) : AsmLine :=
  if m = "REG_WRITE" then
    twoOperands ops fun a b => operandU 16 a fun addr => operandU 16 b fun data => .instr (.regWrite addr data)
  else if m = "REG_READ" then oneOperand ops fun a => operandU 16 a fun addr => .instr (.regRead addr)
  else if m = "CH_RESOLVE" then
    twoOperands ops fun a b => operandU 16 a fun base => operandU 3 b fun ch => .instr (.chResolve base ch)
  else if m = "CH_WRITE" then
    threeOperands ops fun a b d =>
      operandU 16 a fun base => operandU 3 b fun ch => operandU 16 d fun data => .instr (.chWrite base ch data)
  else if m = "CH_READ" then
    twoOperands ops fun a b => operandU 16 a fun base => operandU 3 b fun ch => .instr (.chRead base ch)
  else if m = "FREQ_ENCODE" then oneOperand ops fun a => operandFreq a fun f => .instr (.freqEncode f)
  else if m = "FREQ_DECODE" then
    twoOperands ops fun a b => operandU 16 a fun msb => operandU 16 b fun lsb => .instr (.freqDecode msb lsb)
  else if m = "SET_FREQ" then oneOperand ops fun a => operandFreq a fun f => .instr (.setFreq f)
  else if m = "GET_FREQ" then noOperand ops .getFreq
  else if m = "SET_FCLK" then oneOperand ops fun a => operandU 64 a fun hz => .instr (.setFclk hz)
  else if m = "PAT_STOP" then noOperand ops .patStop
  else if m = "PAT_START" then noOperand ops .patStart
  else if m = "PAT_UPDATE" then noOperand ops .patUpdate
  else if m = "PAT_SHUTDOWN" then noOperand ops .patShutdown
  else if m = "ERR_SET" then oneOperand ops fun a => operandU 3 a fun code => .instr (.errSet code)
  else if m = "SET_OFFSET" then asmSet c .offset ops
  else if m = "GET_OFFSET" then asmGet c .offset ops
  else if m = "SET_GAIN" then asmSet c .gain ops
  else if m = "GET_GAIN" then asmGet c .gain ops
  else if m = "SET_PHASE" then asmSet c .phase ops
  else if m = "GET_PHASE" then asmGet c .phase ops
  else if m = "SET_START_DELAY" then asmSet c .startDelay ops
  else if m = "GET_START_DELAY" then asmGet c .startDelay ops
  else .error .unknownMnemonic

/-- One line: "One command is written per line" (R72). -/
def asmLine (c : Config) (line : List Char) : AsmLine :=
  match trimBlanks (dropComment line) with
  | [] => .empty
  | l =>
    let m := l.takeWhile fun ch => !isBlank ch
    let rest := trimBlanks (l.dropWhile fun ch => !isBlank ch)
    asmOp c (String.ofList m) (if rest.isEmpty then [] else (splitCommas rest).map trimBlanks)

/-! ## The written form of a command word (R72) -/

/-- The digit of a value below 16. -/
def hexDigit (n : Nat) : Char := digitChars.getD n '0'

/-- The `k` low hexadecimal digits of `n`, the most significant first. -/
def hexDigits : Nat → Nat → List Char
  | 0, _ => []
  | k + 1, n => hexDigits k (n / 16) ++ [hexDigit (n % 16)]

/-- "five hexadecimal groups, most significant first: `arg(16 digits)_data2(4)_data(4)_addr(4)_low(4)`" (R72). -/
def writtenForm (c : CmdWord) : List Char :=
  hexDigits 16 (fieldArg c).toNat ++ ['_'] ++ hexDigits 4 (fieldData2 c).toNat ++ ['_'] ++
    hexDigits 4 (fieldData c).toNat ++ ['_'] ++ hexDigits 4 (fieldAddr c).toNat ++ ['_'] ++
    hexDigits 4 (c.extractLsb' 0 16).toNat

end Sys2Proof.Machine
end

