-- ==== Sys2Proof/Tests/Slice0.lean ====
section
/-! SUPPORT. Tests on fixed values, each expected result from the spec: the worked examples and vectors of 95_test_vectors.md, the
worked encodings of 30_encoding.md R74, or a calculation by hand from the rule named. And, for every obligation that has
hypotheses, a state and operands that meet them. -/

namespace Sys2Proof.Tests

open Sys2Proof Sys2Proof.Machine

/-! ## Helpers -/

/-- The reset state of a configuration, with the chip's next answers lined up. -/
def start (chip : List Word16) (c : Config := {}) : State := { State.resetTo c with chipIn := chip }

/-- The same in the pattern state Running. -/
def running (chip : List Word16) (c : Config := {}) : State :=
  { start chip c with trig := false, hist := [.cs true, .trig true, .trig false] }

/-- The state a step or an instruction leaves. -/
def next? : Host.Outcome State Fault Refusal → Option State
  | .next t => some t
  | .fault _ => none
  | .refused _ => none

/-- The events an instruction adds from `s`. -/
def eventsOf (i : Instr) (s : State) : Option (List Event) := (next? (exec i s)).map (eventsAfter s)

/-- The response an instruction gives. -/
def rspOf (i : Instr) (s : State) : Option Response := (next? (exec i s)).bind State.rsp

/-- `Txn(w1,w2;r1,r2)` of 95_test_vectors.md, with the default settle time. -/
def txn (w1 w2 r1 r2 : Word16) : List Event := [.cs false, .xchg w1 r1, .xchg w2 r2, .cs true, .wait 1]

/-- Whether a step is refused for its configuration. -/
def refusesConfig (c : Config) : Bool :=
  match step (State.resetTo c) with
  | .next _ => false
  | .fault _ => false
  | .refused .badConfiguration => true
  | .refused (.notModelled _) => false

/-! ## Decoding: every instruction's word, written out from R61, R62 and R66 -/

/-- R74 -/
theorem test_decode_regWrite : decodeTableWord 128 0x0000000000000000_0000_1234_0025_0001 = some (.regWrite 0x25 0x1234) := by
  decide
/-- R74 -/
theorem test_decode_regRead : decodeTableWord 128 0x0000000000000000_0000_0000_001E_0002 = some (.regRead 0x1E) := by decide
/-- `CH_RESOLVE 0x5C, 4`: ch 0b100 at 6:4, op 0b0011, so low = 0b0100_0011 -/
theorem test_decode_chResolve : decodeTableWord 128 0x0000000000000000_0000_0000_005C_0043 = some (.chResolve 0x5C 4) := by
  decide
/-- R74 -/
theorem test_decode_chWrite : decodeTableWord 128 0x0000000000000000_0000_0100_005C_0034 = some (.chWrite 0x5C 3 0x100) := by
  decide
/-- `CH_READ 0x25, 7`: ch 0b111 at 6:4 -/
theorem test_decode_chRead : decodeTableWord 128 0x0000000000000000_0000_0000_0025_0075 = some (.chRead 0x25 7) := by decide
/-- `FREQ_ENCODE -2^63`: only bit 127 of the argument -/
theorem test_decode_freqEncode :
    decodeTableWord 128 0x8000000000000000_0000_0000_0000_0006 = some (.freqEncode (BitVec.ofInt 64 (-(2 ^ 63)))) := by decide
/-- R74 -/
theorem test_decode_freqDecode : decodeTableWord 128 0x0000000000000000_6E00_01A3_0000_0007 = some (.freqDecode 0x01A3 0x6E00) := by
  decide
/-- R74 -/
theorem test_decode_setFreq : decodeTableWord 128 0xFFFFFFFFFFFFFFFF_0000_0000_0000_0008 = some (.setFreq (-1)) := by decide
/-- op 0x9 -/
theorem test_decode_getFreq : decodeTableWord 128 0x9 = some .getFreq := by decide
/-- `SET_FCLK 156250000` = 0x9502F90 -/
theorem test_decode_setFclk : decodeTableWord 128 0x0000000009502F90_0000_0000_0000_000A = some (.setFclk 156250000) := by decide
/-- 95_test_vectors.md 2.1: the unused fields are ignored -/
theorem test_decode_patStop : decodeTableWord 128 0xFFFFFFFFFFFFFFFF_FFFF_FFFF_0000_070B = some .patStop := by decide
/-- op 0xC, with an unused field -/
theorem test_decode_patStart : decodeTableWord 16 0x007C = some .patStart := by decide
/-- op 0xD -/
theorem test_decode_patUpdate : decodeTableWord 16 0x000D = some .patUpdate := by decide
/-- op 0xE -/
theorem test_decode_patShutdown : decodeTableWord 16 0x000E = some .patShutdown := by decide
/-- R74: `ERR_SET 7`; code 0b111 at 10:8 -/
theorem test_decode_errSet : decodeTableWord 128 0x070F = some (.errSet 7) := by decide
/-- 95_test_vectors.md W9 -/
theorem test_decode_frameWrite : decodeTableWord 32 0x00251234 = some (.frameWrite 0x25 0x1234) := by decide
/-- 95_test_vectors.md W9 -/
theorem test_decode_frameRead : decodeTableWord 32 0x80250000 = some (.frameRead 0x25) := by decide

/-- 95_test_vectors.md 2.1: the illegal words. -/
theorem test_decode_illegal :
    decodeCommand 0 = .rejected .opZero ∧
    decodeCommand 0x0000000000000000_0000_1234_0025_0081#128 = .rejected .reservedBits ∧
    decodeCommand 0x0000000000000000_0000_1234_0025_0801#128 = .rejected .reservedBits ∧
    decodeCommand 0x0000000000000000_0000_0000_0000_F80B#128 = .rejected .reservedBits ∧
    decodeCommand 0x0000000000000000_0000_0000_0000_0084#128 = .rejected .reservedBits := by decide

/-- R68: a read frame with a dummy that is not 0 is no frame. -/
theorem test_decode_frame_dummy : decodeFrame 0x80250001#32 = .rejected .dummyNotZero := by decide

/-- R72, R74: the encoder writes reserved bits and unread fields as 0. -/
theorem test_encode_words :
    encode (.chWrite 0x5C 3 0x100) = .cmd 0x0000000000000000_0000_0100_005C_0034#128 ∧
    encode (.setFreq 1000000) = .cmd 0x00000000000F4240_0000_0000_0000_0008#128 ∧
    encode (.freqDecode 0x01A3 0x6E00) = .cmd 0x0000000000000000_6E00_01A3_0000_0007#128 ∧
    encode (.errSet 7) = .cmd 0x070F#128 ∧ encode (.frameRead 0x25) = .frame 0x80250000#32 := by decide

/-- R86, R43: 0x8001 goes out as 1, fourteen times 0, 1. -/
theorem test_wire_order :
    bitsMsbFirst 0x8002#16 = [true] ++ List.replicate 13 false ++ [true, false] ∧
    wordOfBits ([true] ++ List.replicate 13 false ++ [true, false]) = 0x8002#16 := by decide

/-! ## Well-formedness: each check refuses an ill-formed term -/

/-- R69: a frame address above 0x007F. -/
theorem test_wellFormed_frames :
    (Instr.frameWrite 0x80 0).wellFormed = false ∧ (Instr.frameRead 0x80).wellFormed = false ∧
    (Instr.frameWrite 0x7F 0xFFFF).wellFormed = true ∧ (Instr.frameRead 0x7F).wellFormed = true := by decide

/-- R72: a channel of 5 assembles. -/
theorem test_wellFormed_commands : (Instr.chWrite 0x25 5 0).wellFormed = true ∧ (Instr.setFclk 0).wellFormed = true := by
  decide

/-- R8: every address constraint, broken alone, is refused. -/
theorem test_config_addresses :
    refusesConfig { aPatStatus := 0x80 } = true ∧ refusesConfig { aRamUpdate := 0x80 } = true ∧
    refusesConfig { aDdsTwMsb := 0x80 } = true ∧ refusesConfig { aDdsTwLsb := 0x80 } = true ∧
    refusesConfig { aDdsTwLsb := 0x3E } = true ∧ refusesConfig { bGain := 0x50 } = true ∧
    refusesConfig { bGain := 2 } = true ∧ refusesConfig { bPhase := 0x50 } = true ∧
    refusesConfig { bPhase := 2 } = true := by decide

/-- R8: the other constraints, each broken alone, are refused. -/
theorem test_config_rest :
    refusesConfig { runVariant := false, updRunMode := .recheck } = true ∧
    refusesConfig { runVariant := false, shutdownMode := .clearRun } = true ∧
    refusesConfig { tSettle := 0 } = true ∧ refusesConfig { tRun := 9 } = true ∧
    refusesConfig { fclkReset := 0 } = true ∧ refusesConfig { fclkReset := 2 ^ 32 } = true := by decide

/-- R8: the boundary values are accepted, and so is the default configuration. -/
theorem test_config_accepted :
    refusesConfig {} = false ∧ refusesConfig { runVariant := false } = false ∧
    refusesConfig { aPatStatus := 0x7F, bGain := 3, bPhase := 0x4F, tUpd1 := 0, tUpd2 := 0, fclkReset := 2 ^ 32 - 1 } = false := by
  decide

/-! ## The commands -/

/-- 95_test_vectors.md 2.2 -/
theorem test_regWrite :
    eventsOf (.regWrite 0x7F 0xFFFF) (start [0x1111, 0x2222]) = some (txn 0x7F 0xFFFF 0x1111 0x2222) ∧
    rspOf (.regWrite 0x7F 0xFFFF) (start [0x1111, 0x2222]) = some { d0 := 0x2222 } := by decide
/-- 95_test_vectors.md 2.2: bit 15 can never turn a write into a read -/
theorem test_regWrite_fault :
    eventsOf (.regWrite 0x8025 1) (start [1, 2]) = some [] ∧
    rspOf (.regWrite 0x8025 1) (start [1, 2]) = some { status := .addrFault } := by decide
/-- 95_test_vectors.md 2.2: unsigned, and the first word is discarded -/
theorem test_regRead :
    eventsOf (.regRead 0x1E) (start [0xAAAA, 0xFFFF]) = some (txn 0x801E 0 0xAAAA 0xFFFF) ∧
    rspOf (.regRead 0x1E) (start [0xAAAA, 0xFFFF]) = some { d0 := 0xFFFF } := by decide
/-- 95_test_vectors.md 2.2 -/
theorem test_regRead_fault :
    rspOf (.regRead 0x80) (start []) = some { status := .addrFault } ∧
    rspOf (.regRead 0xFFFF) (start []) = some { status := .addrFault } := by
  decide

/-- 95_test_vectors.md 2.3, W1, W2: the addresses. -/
theorem test_chResolve :
    (([1, 2, 3, 4] : List Chan).map fun c => rspOf (.chResolve 0x25 c) (start [])) =
      ([0x25, 0x24, 0x23, 0x22] : List Word16).map (fun a => some { d0 := a }) ∧
    (([1, 2, 3, 4] : List Chan).map fun c => rspOf (.chResolve 0x5C c) (start [])) =
      ([0x5C, 0x58, 0x54, 0x50] : List Word16).map (fun a => some { d0 := a }) ∧
    (([1, 2, 3, 4] : List Chan).map fun c => rspOf (.chResolve 0x50 c) (start [])) =
      ([0x50, 0x4C, 0x48, 0x44] : List Word16).map (fun a => some { d0 := a }) ∧
    rspOf (.chResolve 0x4F 4) (start []) = some { d0 := 0x4C } ∧
    rspOf (.chResolve 0x03 4) (start []) = some { d0 := 0 } := by decide
/-- 95_test_vectors.md 2.3: the faults in their order. -/
theorem test_chResolve_faults :
    rspOf (.chResolve 2 4) (start []) = some { status := .resolveFault } ∧
    rspOf (.chResolve 0 2) (start []) = some { status := .resolveFault } ∧
    (([0, 5, 6, 7] : List Chan).map fun c => rspOf (.chResolve 0x25 c) (start [])) =
      List.replicate 4 (some { status := .channelFault }) ∧
    rspOf (.chResolve 0x80 4) (start []) = some { status := .addrFault } ∧
    rspOf (.chResolve 0x8000 0) (start []) = some { status := .channelFault } := by decide
/-- 95_test_vectors.md 2.3 -/
theorem test_chWrite :
    eventsOf (.chWrite 0x25 2 0x100) (start [1, 2]) = some (txn 0x24 0x100 1 2) ∧
    rspOf (.chWrite 0x25 2 0x100) (start [1, 2]) = some { d0 := 0x24, d1 := 2 } := by decide
/-- 95_test_vectors.md 2.3 -/
theorem test_chWrite_fault :
    eventsOf (.chWrite 0x25 5 0x1234) (start [1, 2]) = some [] ∧
    rspOf (.chWrite 0x25 5 0x1234) (start [1, 2]) = some { status := .channelFault } := by decide
/-- 95_test_vectors.md 2.3 -/
theorem test_chRead :
    eventsOf (.chRead 0x5C 3) (start [1, 2]) = some (txn 0x8054 0 1 2) ∧
    rspOf (.chRead 0x5C 3) (start [1, 2]) = some { d0 := 0x54, d1 := 2 } := by decide
/-- 95_test_vectors.md 2.3 -/
theorem test_chRead_fault : rspOf (.chRead 2 4) (start [1, 2]) = some { status := .resolveFault } := by decide

/-- 95_test_vectors.md 2.4: rounding, the wrap. -/
theorem test_freqEncode :
    (([4, 5, 1234567, 100000000, 156249995, 156249996, 156250000] : List Freq64).map fun f => rspOf (.freqEncode f) (start [])) =
      [some {}, some { tw := 1, d1 := 0x0100 }, some { tw := 132561, d0 := 0x0205, d1 := 0xD100 },
        some { tw := 10737418, d0 := 0xA3D7, d1 := 0x0A00 }, some { tw := 0xFFFFFF, d0 := 0xFFFF, d1 := 0xFF00 },
        some { tw := 0x1000000 }, some { tw := 0x1000000 }] := by decide
/-- 95_test_vectors.md 2.4: a tie rounds up; the last clock. -/
theorem test_freqEncode_ties :
    (([1, 3, 2 ^ 25 - 1] : List Freq64).map fun f => encodeTw f (BitVec.ofNat 32 (2 ^ 25))) = [1, 2, 0x1000000] ∧
    encodeTw 1 3 = 0x555555 ∧ encodeTw (BitVec.ofNat 64 (2 ^ 31)) (BitVec.ofNat 32 (2 ^ 32 - 1)) = 0x800000 ∧
    encodeTw 1 1 = 0x1000000 := by decide
/-- 95_test_vectors.md 2.4: no sign extension, the low byte ignored. -/
theorem test_freqDecode :
    rspOf (.freqDecode 0x01A3 0x6EFF) (start []) = some { tw := 107374, fqQ24 := 16777187500000 } ∧
    rspOf (.freqDecode 0x8000 0x8000) (start []) = some { tw := 0x800080, fqQ24 := 1310740000000000 } ∧
    rspOf (.freqDecode 0xFFFF 0xFFFF) (start []) = some { tw := 0xFFFFFF, fqQ24 := 2621439843750000 } ∧
    wholeHz 16777187500000 = 999998 := by decide
/-- 95_test_vectors.md W8 -/
theorem test_setFreq :
    eventsOf (.setFreq 1000000) (start [1, 2, 3, 4]) = some (txn 0x3E 0x01A3 1 2 ++ txn 0x3F 0x6E00 3 4) ∧
    rspOf (.setFreq 1000000) (start [1, 2, 3, 4]) = some { d0 := 0x01A3, d1 := 0x6E00, tw := 107374 } := by decide
/-- 95_test_vectors.md W7, 2.6: nothing is sent, `LAST_ERROR` is 7, no `FAULT` bit. -/
theorem test_setFreq_invalid :
    (([156250001, -1] : List Freq64).map fun f =>
        (next? (exec (.setFreq f) (start []))).map fun t => (t.hist, t.lastError, t.fault, t.rsp)) =
      List.replicate 2 (some ([.cs true, .trig true], 7, 0, some { status := .invalidParameter })) := by decide
/-- 95_test_vectors.md 2.4 -/
theorem test_getFreq :
    eventsOf .getFreq (start [1, 0x8000, 3, 0]) = some (txn 0x803E 0 1 0x8000 ++ txn 0x803F 0 3 0) ∧
    rspOf .getFreq (start [1, 0x8000, 3, 0]) = some { d0 := 0x8000, tw := 0x800000, fqQ24 := 1310720000000000 } := by decide
/-- 95_test_vectors.md 2.4 -/
theorem test_setFclk :
    (([1, 4294967295] : List Freq64).map fun h => (next? (exec (.setFclk h) (start []))).map fun t => (t.fclk, t.rsp)) =
      [some (1, some {}), some (0xFFFFFFFF, some {})] := by decide
/-- 95_test_vectors.md 2.4 -/
theorem test_setFclk_fault :
    (([0, 4294967296, -1] : List Freq64).map fun h =>
        (next? (exec (.setFclk h) (start []))).map fun t => (t.fclk.toNat, t.fault, t.rsp)) =
      List.replicate 3 (some (156250000, 0b10000, some { status := .fclkFault })) := by decide

/-- 95_test_vectors.md PV1, PV2, W5 -/
theorem test_patStop :
    eventsOf .patStop (start []) = some [.trig true] ∧ eventsOf .patStop (running []) = some [.trig true] ∧
    (next? (exec .patStop (running []))).map State.pstate = some .stopped := by decide
/-- 95_test_vectors.md PV4, PV5, PV6 -/
theorem test_patStart :
    eventsOf .patStart (start [0, 1]) = some (txn 0x801E 0 0 1 ++ [.trig false]) ∧
    eventsOf .patStart (running [0, 0xFFFE, 5, 6]) =
      some (txn 0x801E 0 0 0xFFFE ++ txn 0x1E 1 5 6 ++ [.wait 10, .trig false]) ∧
    eventsOf .patStart (start [] { runVariant := false }) = some [.trig false] := by decide
/-- 95_test_vectors.md PV6b: another run bit -/
theorem test_patStart_runBit :
    eventsOf .patStart (start [0, 1, 5, 6] { runBit := 3 }) =
      some (txn 0x801E 0 0 1 ++ txn 0x1E 8 5 6 ++ [.wait 10, .trig false]) := by decide
/-- 95_test_vectors.md PV7, PV9 -/
theorem test_patUpdate :
    eventsOf .patUpdate (start [1, 2, 3, 1]) =
      some ([.trig true, .wait 10] ++ txn 0x1D 1 1 2 ++ [.wait 10] ++ txn 0x801E 0 3 1 ++ [.trig false]) ∧
    eventsOf .patUpdate (running [1, 2] { runVariant := false }) =
      some ([.trig true, .wait 10] ++ txn 0x1D 1 1 2 ++ [.wait 10, .trig false]) := by decide
/-- 95_test_vectors.md PV10, PV11: the other run modes -/
theorem test_patUpdate_modes :
    eventsOf .patUpdate (start [1, 2, 3, 4, 5, 1] { updRunMode := .reassert }) =
      some ([.trig true, .wait 10] ++ txn 0x1D 1 1 2 ++ txn 0x1E 1 3 4 ++ [.wait 10] ++ txn 0x801E 0 5 1 ++ [.trig false]) ∧
    eventsOf .patUpdate (start [1, 2, 3, 0, 5, 6, 7, 1] { updRunMode := .recheck }) =
      some ([.trig true, .wait 10] ++ txn 0x1D 1 1 2 ++ txn 0x801E 0 3 0 ++ txn 0x1E 1 5 6 ++ [.wait 10, .wait 10] ++
        txn 0x801E 0 7 1 ++ [.trig false]) := by decide
/-- 95_test_vectors.md PV12, PV13 -/
theorem test_patShutdown :
    eventsOf .patShutdown (running []) = some [.trig true] ∧
    eventsOf .patShutdown (running [1, 2] { shutdownMode := .clearRun }) = some ([.trig true] ++ txn 0x1E 0 1 2) := by decide
/-- 95_test_vectors.md 2.6 -/
theorem test_errSet :
    ((next? (exec (.errSet 7) (start []))).map State.lastError,
      (next? (exec (.errSet 0) { start [] with lastError := 7 })).map State.lastError) = (some 7, some 0) := by decide
/-- R82; the framer's own port (log 6) -/
theorem test_frameWrite :
    eventsOf (.frameWrite 0x25 0x1234) (start [1, 2]) = some (txn 0x25 0x1234 1 2) ∧
    rspOf (.frameWrite 0x80 0) (start []) = some { status := .addrFault } := by decide
/-- R83; the framer's own port (log 6) -/
theorem test_frameRead :
    eventsOf (.frameRead 0x25) (start [1, 2]) = some (txn 0x8025 0 1 2) ∧
    rspOf (.frameRead 0x25) (start [1, 2]) = some { d0 := 2 } := by decide

/-! ## Steps -/

/-- One step runs the word offered; 95_test_vectors.md 2.1. -/
theorem test_step_runs :
    (next? (step ((start []).withFetchWord 128 0xFFFFFFFFFFFFFFFF_FFFF_FFFF_0000_070B))).map
        (fun t => (t.hist, t.rsp, t.requests, t.busy)) =
      some ([.cs true, .trig true, .trig true], some {}, [], false) := by decide

/-- A frame at the framer's port runs too (log 6). -/
theorem test_step_frame :
    (next? (step ((start [1, 2]).withFetchWord 32 0x801E0000))).map (eventsAfter (start [])) = some (txn 0x801E 0 1 2) := by
  decide

/-- 95_test_vectors.md 2.6: `FAULT` accumulates. -/
theorem test_fault_accumulates :
    let s1 := next? (step ((start []).withFetchWord 128 0x0000_0025_0054))
    let s2 := s1.bind fun s => next? (step (s.withFetchWord 128 0x0000_0080_0002))
    let s3 := s2.bind fun s => next? (step (s.withFetchWord 128 0))
    let s4 := s3.bind fun s => next? (step (s.withFetchWord 128 0xA))
    (s1.map State.fault, s2.map State.fault, s3.map State.fault, s4.map State.fault) =
      (some 0b00100, some 0b00110, some 0b00111, some 0b10111) := by decide

/-- R221: a reset after three actions of `REG_WRITE`, with the chip still selected. -/
theorem test_reset_inside_transaction :
    (ticks 3 ((start [1, 2]).launch (some (.regWrite 0x25 0)))).csN = false ∧
    (next? (step { start [1, 2] with requests := [.offerThenReset 0x0000_0025_0001#128 3], lastError := 3 })).map
        (fun t => (decide (t.outputs = State.reset.outputs), t.hist, t.rsp.isNone, t.seq.isNone)) =
      some (true, [.cs true, .trig true], true, true) := by decide

/-- R24: a command under way runs to its end and the offer stands. -/
theorem test_busy_holds :
    let s := ticks 2 ((start [1, 2]).launch (some (.regRead 0x1E)))
    (next? (step { s with requests := [.offer (.cmd 0xB)] })).map (fun t => (t.rsp, t.busy, t.requests)) =
      some (some { d0 := 2 }, false, [.offer (.cmd 0xB)]) := by decide

/-! ## The assembler (R72, R73) -/

/-- R74, R73, comments, a negative frequency, operands that do not fit. -/
theorem test_asm :
    asmLine {} "CH_WRITE 0x5C, 3, 0x0100 ; start delay".toList = .instr (.chWrite 0x5C 3 0x100) ∧
    asmLine {} "SET_FREQ -1".toList = .instr (.setFreq (-1)) ∧
    asmLine {} "SET_PHASE 2, 7".toList = .instr (.chWrite 0x43 2 7) ∧
    asmLine {} "CH_READ 0x25, 5".toList = .instr (.chRead 0x25 5) ∧
    asmLine {} "REG_READ 0x10000".toList = .error .doesNotFit ∧ asmLine {} "ERR_SET 8".toList = .error .doesNotFit ∧
    asmLine {} "; nothing".toList = .empty := by decide

/-- R72, R74: the written form. -/
theorem test_written_form :
    writtenForm 0x0000000000000000_0000_0100_005C_0034#128 = "0000000000000000_0000_0100_005C_0034".toList := by decide

/-! ## Witnesses: for every obligation with hypotheses, values that meet them, at the ends of each clause's range -/

/-- Words with each op, legal and with a reserved bit, for the `WordMeans` part of the command statements. -/
theorem witness_WordMeans :
    (∀ op : Fin 16, (BitVec.ofNat 128 op.val).extractLsb' 0 4 = BitVec.ofNat 4 op.val ∧
      (BitVec.ofNat 128 op.val).extractLsb' 7 1 = 0#1 ∧ (BitVec.ofNat 128 op.val).extractLsb' 11 5 = 0#5) ∧
    (0x8081#128).extractLsb' 0 4 = 1#4 ∧ (0x8081#128).extractLsb' 7 1 ≠ 0#1 ∧
    (0x8081#128).extractLsb' 11 5 ≠ 0#5 := by decide

/-- The same part's steps: a legal word of op 0x1, and one with a reserved bit, offered to a machine that is free. -/
theorem witness_WordMeans_step :
    ((0x1#128).extractLsb' 0 4 = 1#4 ∧ (0x1#128).extractLsb' 7 1 = 0#1 ∧ (0x1#128).extractLsb' 11 5 = 0#5 ∧
      Ready ((start [1, 2]).withFetchWord 128 1) ∧ ((start [1, 2]).withFetchWord 128 1).requests = [.offer (.cmd 0x1#128)]) ∧
    ((0x81#128).extractLsb' 0 4 = 1#4 ∧ (0x81#128).extractLsb' 7 1 ≠ 0#1 ∧
      Ready ((start [1, 2]).withFetchWord 128 0x81) ∧
      ((start [1, 2]).withFetchWord 128 0x81).requests = [.offer (.cmd 0x81#128)]) := by
  refine ⟨⟨by decide, by decide, by decide, ⟨by decide, rfl, rfl⟩, by decide⟩,
    ⟨by decide, by decide, ⟨by decide, rfl, rfl⟩, by decide⟩⟩

/-- RegWriteWritesOneRegister, RegReadReadsOneRegister: the last address and the first that faults. -/
theorem witness_RegWrite_RegRead :
    (0x0000#16).toNat ≤ 0x7F ∧ (0x007F#16).toNat ≤ 0x7F ∧ 0x7F < (0x0080#16).toNat ∧ 0x7F < (0xFFFF#16).toNat := by decide

/-- FrameWriteIsARegisterWrite, FrameReadIsARegisterRead. -/
theorem witness_FrameWrite_FrameRead :
    (0x0000#15).toNat ≤ 0x7F ∧ (0x007F#15).toNat ≤ 0x7F ∧ 0x7F < (0x0080#15).toNat ∧ 0x7F < (0x7FFF#15).toNat := by decide

/-- ChResolveAnswersTheRegister, ChWriteWritesTheChannel, ChReadReadsTheChannel: no fault, in both regimes. -/
theorem witness_Ch_ok :
    chFault 0x0003 4 = none ∧ chFault 0x0000 1 = none ∧ chFault 0x004F 4 = none ∧ chFault 0x0050 4 = none ∧
    chFault 0x007F 1 = none := by decide

/-- The same statements: each fault, at its ends. -/
theorem witness_Ch_faults :
    chFault 0x0025 0 = some (0b00100, .channelFault) ∧ chFault 0x0025 5 = some (0b00100, .channelFault) ∧
    chFault 0x8000 7 = some (0b00100, .channelFault) ∧ chFault 0x0080 1 = some (0b00010, .addrFault) ∧
    chFault 0xFFFF 4 = some (0b00010, .addrFault) ∧ chFault 0x0002 4 = some (0b01000, .resolveFault) ∧
    chFault 0x0000 2 = some (0b01000, .resolveFault) := by decide

/-- FreqEncodeAnswersTheWord, SetFreqWritesBothRegisters: both ends of the range, and one past each. -/
theorem witness_FreqEncode_SetFreq :
    1 ≤ (start []).fclk.toNat ∧
    (0 ≤ (0#64).toInt ∧ (0#64).toInt ≤ ((start []).fclk.toNat : Int)) ∧
    (0 ≤ (156250000#64).toInt ∧ (156250000#64).toInt ≤ ((start []).fclk.toNat : Int)) ∧
    (-1#64).toInt < 0 ∧ ((start []).fclk.toNat : Int) < (156250001#64).toInt := by decide

/-- SetFclkWritesTheClock. -/
theorem witness_SetFclk :
    (1 ≤ (1#64).toNat ∧ (1#64).toNat ≤ 2 ^ 32 - 1) ∧
    (1 ≤ (0xFFFFFFFF#64).toNat ∧ (0xFFFFFFFF#64).toNat ≤ 2 ^ 32 - 1) ∧
    (0#64).toNat = 0 ∧ 2 ^ 32 ≤ (0x100000000#64).toNat := by decide

/-- PatStartEnsuresTheRunBit: its three cases, with the run bit at either end of the word. -/
theorem witness_PatStart :
    (start [] { runVariant := false }).cfg.runVariant = false ∧
    ((start [0, 1]).cfg.runVariant = true ∧ ((start [0, 1]).rx 1).getLsbD (start [0, 1]).cfg.runBit = true) ∧
    ((start [0, 0x7FFF] { runBit := 15 }).cfg.runVariant = true ∧
      ((start [0, 0x7FFF] { runBit := 15 }).rx 1).getLsbD (start [0, 0x7FFF] { runBit := 15 }).cfg.runBit = false) := by
  decide

/-- PatShutdownStops. -/
theorem witness_PatShutdown :
    (start []).cfg.shutdownMode = .triggerOnly ∧ (start [] { shutdownMode := .clearRun }).cfg.shutdownMode = .clearRun := by
  decide

/-- UnreadFieldsAreIgnored. -/
theorem witness_UnreadFields :
    Ready (start []) ∧
    decodeCommand 0xB#128 = .instr .patStop ∧
    0xFFFFFFFFFFFFFFFF_FFFF_FFFF_1234_077B#128 &&& readMask .patStop = 0xB#128 &&& readMask .patStop := by
  refine ⟨⟨by decide, rfl, rfl⟩, by decide, by decide⟩

/-- IllegalWordsAreExactlyTheReserved: a word for each side. -/
theorem witness_IllegalWords :
    (0x0#128).extractLsb' 0 4 = 0#4 ∧ (0x81#128).extractLsb' 7 1 ≠ 0#1 ∧ (0x801#128).extractLsb' 11 5 ≠ 0#5 ∧
    (∀ r, decodeCommand 0x77F#128 ≠ .rejected r) := by
  refine ⟨by decide, by decide, by decide, fun r => ?_⟩
  rw [show decodeCommand 0x77F#128 = .instr (.errSet 7) by decide]
  intro h
  cases h

/-- FramesAreAddressWordThenData. -/
theorem witness_Frames : (0x0000#16).toNat ≤ 0x7F ∧ (0x007F#16).toNat ≤ 0x7F := by decide

/-- StepRunsTheDecodedInstruction, for a command and for a frame. -/
theorem witness_StepRuns :
    (Ready ((start []).withFetchWord 128 0xB) ∧ ((start []).withFetchWord 128 0xB).requests = [.offer (.cmd 0xB#128)] ∧
      decode (.cmd 0xB#128) = .instr .patStop) ∧
    (Ready ((start []).withFetchWord 32 0x80250000) ∧
      ((start []).withFetchWord 32 0x80250000).requests = [.offer (.frame 0x80250000#32)] ∧
      decode (.frame 0x80250000#32) = .instr (.frameRead 0x25)) := by
  refine ⟨⟨⟨by decide, rfl, rfl⟩, by decide, by decide⟩, ⟨⟨by decide, rfl, rfl⟩, by decide, by decide⟩⟩

/-- IllegalWordFaults: each of its three cases. -/
theorem witness_IllegalWordFaults :
    Ready { start [] with requests := [.offer (.cmd 0#128)] } ∧ (0#128).extractLsb' 0 4 = 0#4 ∧
    (0x81#128).extractLsb' 7 1 ≠ 0#1 ∧ (0x8001#128).extractLsb' 11 5 ≠ 0#5 := by
  refine ⟨⟨by decide, rfl, rfl⟩, by decide, by decide, by decide⟩

/-- NoFrameStopsByName. -/
theorem witness_NoFrame :
    Ready { start [] with requests := [.offer (.frame 0x80250001#32)] } ∧ (0x80250001#32).extractLsb' 31 1 = 1#1 ∧
    (0x80250001#32).extractLsb' 0 16 ≠ 0#16 := by
  refine ⟨⟨by decide, rfl, rfl⟩, by decide, by decide⟩

/-- BusyHoldsTheOffer: a read cut in the middle of its transaction, with an offer standing. -/
theorem witness_BusyHolds :
    ∃ fl, (ticks 2 ((start [1, 2]).launch (some (.regRead 0x1E)))).seq = some fl ∧
      (ticks 2 ((start [1, 2]).launch (some (.regRead 0x1E)))).busy = true ∧
      (ticks 2 ((start [1, 2]).launch (some (.regRead 0x1E)))).cfg.wf = true ∧
      (ticks 2 ((start [1, 2]).launch (some (.regRead 0x1E)))).requests = [] :=
  ⟨_, rfl, rfl, by decide, rfl⟩

/-- ResetSetsEveryRegister, also while a command runs. -/
theorem witness_ResetSets :
    { ticks 2 ((start [1, 2]).launch (some (.regRead 0x1E))) with requests := [.reset] }.cfg.wf = true ∧
    { ticks 2 ((start [1, 2]).launch (some (.regRead 0x1E))) with requests := [.reset] }.requests = [.reset] ∧
    { ticks 2 ((start [1, 2]).launch (some (.regRead 0x1E))) with requests := [.reset] }.busy = true := by
  refine ⟨by decide, rfl, rfl⟩

/-- ResetAbandonsACommand. -/
theorem witness_ResetAbandons : Ready { start [1, 2] with requests := [.offerThenReset 0x0000_0025_0001#128 3] } :=
  ⟨by decide, rfl, rfl⟩

/-- IdleStepChangesNothing. -/
theorem witness_Idle : Ready State.reset ∧ State.reset.requests = [] := ⟨⟨by decide, rfl, rfl⟩, rfl⟩

/-- OneOutcomeByPriority: a word that does not decode. -/
theorem witness_OneOutcome_illegal :
    Ready { start [] with requests := [.offer (.cmd 0#128)] } ∧ ∀ i, decodeCommand 0#128 ≠ .instr i := by
  refine ⟨⟨by decide, rfl, rfl⟩, fun i h => ?_⟩
  have e : decodeCommand 0#128 = .rejected .opZero := by decide
  rw [e] at h
  cases h

/-- OneOutcomeByPriority: no condition, and each condition. -/
theorem witness_OneOutcome :
    firstCondition (.chWrite 0x25 4 0) (start []) = none ∧
    firstCondition (.chWrite 0x8000 0 0) (start []) = some (0b00100, .channelFault) ∧
    firstCondition (.regRead 0x80) (start []) = some (0b00010, .addrFault) ∧
    firstCondition (.chRead 2 4) (start []) = some (0b01000, .resolveFault) ∧
    firstCondition (.setFclk 0) (start []) = some (0b10000, .fclkFault) ∧
    firstCondition (.setFreq (-1)) (start []) = some (0, .invalidParameter) := by decide

/-- LastErrorHasNoOtherPath: an instruction that completes. -/
theorem witness_LastError : ∃ t, exec (.setFreq (-1)) (start []) = .next t ∧ t.lastError = 7 := ⟨_, rfl, rfl⟩

/-- ResolveFollowsTheRegimes: each clause at its ends. -/
theorem witness_ResolveRegimes :
    ((0#3).toNat < 1 ∧ 4 < (5#3).toNat) ∧
    (1 ≤ (4#3).toNat ∧ (4#3).toNat ≤ 4 ∧ 0x7F < (0x80#16).toNat) ∧
    ((0x02#16).toNat < 0x50 ∧ (0x02#16).toNat < (4#3).toNat - 1) ∧
    ((0x03#16).toNat < 0x50 ∧ (4#3).toNat - 1 ≤ (0x03#16).toNat) ∧
    ((0x4F#16).toNat < 0x50 ∧ (4#3).toNat - 1 ≤ (0x4F#16).toNat) ∧
    (0x50 ≤ (0x50#16).toNat ∧ (0x7F#16).toNat ≤ 0x7F) := by decide

/-- ResolveLaws: each clause. -/
theorem witness_ResolveLaws :
    ((0x7F#16).toNat ≤ 0x7F ∧ (0x03#16).toNat ≤ 0x7F) ∧
    ((1#3).toNat < (4#3).toNat ∧ resolve 0x25 1 = .ok 0x25 ∧ resolve 0x25 4 = .ok 0x22) ∧
    resolve 2 4 = .faults .resolveFault ∧ resolve 0x50 4 = .ok 0x44 ∧
    ((0x03#16).toNat < 0x50 ∧ 3 ≤ (0x03#16).toNat ∧ 0x50 ≤ (0x50#16).toNat) := by decide

/-- EncodeRoundsToNearest, WrapAtTheTop: a clock and frequencies at both ends of the range. -/
theorem witness_Encode :
    1 ≤ (1#32).toNat ∧ 1 ≤ (0xFFFFFFFF#32).toNat ∧ 0 ≤ (0#64).toInt ∧
    (0xFFFFFFFF#64).toInt ≤ ((0xFFFFFFFF#32).toNat : Int) ∧ (encodeTw 0xFFFFFFFF#64 0xFFFFFFFF#32).toNat = 2 ^ 24 := by decide

/-- SplitPacksTheWord: the one word with a bit above 23. -/
theorem witness_Split : (0x1000000#48).toNat ≤ 2 ^ 24 ∧ (0x1000000#48).extractLsb' 24 24 ≠ 0#24 := by decide

/-- RoundTripWithinHalfAStep, SetFreqThenGetFreq: the last frequency below the wrap. -/
theorem witness_RoundTrip :
    1 ≤ (start []).fclk.toNat ∧ 0 ≤ (156249995#64).toInt ∧ (156249995#64).toInt ≤ ((start []).fclk.toNat : Int) ∧
    (encodeTw 156249995#64 (start []).fclk).toNat < 2 ^ 24 ∧ (tuningOf 156249995#64 (start []).fclk).toNat < 2 ^ 24 := by
  decide

/-- CodecLaws: each law with a premise. -/
theorem witness_CodecLaws :
    (1 ≤ (2#32).toNat ∧ 2 * (1#64).toInt = ((2#32).toNat : Int)) ∧
    (0 ≤ (1#64).toInt ∧ (1#64).toInt ≤ (2#64).toInt ∧ (2#64).toInt ≤ ((2#32).toNat : Int)) ∧
    (0xFFFFFF#48).toNat < 2 ^ 24 ∧ 0x6E00#16 &&& 0xFF00#16 = 0x6EFF#16 &&& 0xFF00#16 := by decide

/-- StopIsIdempotent. -/
theorem witness_StopIsIdempotent : ∃ t, exec .patStop (running []) = .next t := ⟨_, rfl⟩

/-- RunBitLatencyIsEnforced: the least wait that the reassert mode needs. -/
theorem witness_RunBitLatency :
    (start [] { updRunMode := .reassert }).cfg.wf = true ∧
    (start [] { updRunMode := .reassert }).cfg.aRamUpdate ≠ (start [] { updRunMode := .reassert }).cfg.aPatStatus ∧
    10 ≤ (start [] { updRunMode := .reassert }).cfg.tUpd2 := by decide

/-- ResetIsGood. -/
theorem witness_ResetIsGood : Config.wf {} = true := by decide

/-- EveryStepKeepsGood, GoodStatesAlwaysStep, SelectedOnlyInsideATransaction: a good state with a command offered. -/
theorem witness_Good :
    Good ((start [1, 2]).withFetchWord 128 0x0000_0025_0001) ∧
    ∃ t, step ((start [1, 2]).withFetchWord 128 0x0000_0025_0001) = .next t :=
  ⟨⟨by decide, ⟨rfl, rfl⟩, rfl, by decide, rfl, rfl, by decide⟩, _, rfl⟩

/-- GoodStatesAlwaysStep: a word at the framer's port that is a frame. -/
theorem witness_Good_frame :
    Good ((start [1, 2]).withFetchWord 32 0x80250000) ∧ ∃ i, decodeFrame 0x80250000#32 = .instr i :=
  ⟨⟨by decide, ⟨rfl, rfl⟩, rfl, by decide, rfl, rfl, by decide⟩, _, rfl⟩

/-- SentFramesAreLegal. -/
theorem witness_SentFrames :
    (start [1, 2]).cfg.wf = true ∧
    ∃ t, exec (.regRead 0x7F) (start [1, 2]) = .next t ∧ sentFrames (eventsAfter (start [1, 2]) t) = [0x807F0000#32] :=
  ⟨by decide, _, rfl, by decide⟩

/-- FirstReceivedWordIsDiscarded: two chips that differ in the first word of each transaction. -/
theorem witness_FirstReceived :
    ([1, 2, 3, 4] : List Word16).length = [9, 2, 8, 4].length ∧
    ∀ k : Nat, ([1, 2, 3, 4] : List Word16)[2 * k + 1]? = [9, 2, 8, 4][2 * k + 1]? := by
  refine ⟨rfl, fun k => ?_⟩
  match k with
  | 0 => rfl
  | 1 => rfl
  | n + 2 => rw [List.getElem?_eq_none (by simp; omega), List.getElem?_eq_none (by simp; omega)]

/-- SetFreqWaitsForTheCommit. -/
theorem witness_SetFreqWaits :
    1 ≤ (start [1, 2, 3, 4]).fclk.toNat ∧ 0 ≤ (1000000#64).toInt ∧
    (1000000#64).toInt ≤ ((start [1, 2, 3, 4]).fclk.toNat : Int) ∧
    (start [1, 2, 3, 4]).cfg.aDdsTwMsb ≠ (start [1, 2, 3, 4]).cfg.aRamUpdate ∧
    (start [1, 2, 3, 4]).cfg.aDdsTwLsb ≠ (start [1, 2, 3, 4]).cfg.aRamUpdate ∧
    ∃ t, exec (.setFreq 1000000) (start [1, 2, 3, 4]) = .next t :=
  ⟨by decide, by decide, by decide, by decide, by decide, _, rfl⟩

/-- TicksRunTheWholeCommand, TicksEmitThePrefix. -/
theorem witness_Ticks : State.reset.seq = none := rfl

/-- TicksReachTheEnd: a command under way, and its bound. -/
theorem witness_TicksReachTheEnd :
    ∃ fl, ((start [1, 2]).launch (some (.regRead 0x1E))).seq = some fl ∧ fl.cost ≤ 6 := ⟨_, rfl, by decide⟩

end Sys2Proof.Tests
end

section
/-! The configuration check of R8 in `step`: what refuses, and when. -/

namespace Sys2Proof.Machine

open Sys2Proof

/-- A configuration is bad exactly when one constraint in the last column of R8's table fails. -/
theorem Config_wf_eq_false_iff (c : Config) :
    c.wf = false ↔
      (0x7F < c.aPatStatus.toNat ∨ 0x7F < c.aRamUpdate.toNat ∨ 0x7F < c.aDdsTwMsb.toNat ∨
        0x7F < c.aDdsTwLsb.toNat ∨ c.aDdsTwLsb = c.aDdsTwMsb ∨
        0x50 ≤ c.bGain.toNat ∨ c.bGain.toNat < 3 ∨ 0x50 ≤ c.bPhase.toNat ∨ c.bPhase.toNat < 3 ∨
        (c.runVariant = false ∧ (c.updRunMode ≠ .none ∨ c.shutdownMode ≠ .triggerOnly)) ∨
        c.tSettle < 1 ∨ c.tRun < 10 ∨ c.fclkReset = 0 ∨ 2 ^ 32 ≤ c.fclkReset) := by
  have fclk_top : fclkMax < c.fclkReset ↔ 2 ^ 32 ≤ c.fclkReset := by unfold fclkMax; omega
  rw [Config.wf, decide_eq_false_iff_not]
  simp only [not_and_or, Classical.not_imp, not_not, not_le, not_lt, fclk_top,
    Nat.lt_one_iff, addrMax, groupThreshold, tSettleMin, tRunMin, and_or_left, or_assoc, ne_eq]

/-- Every instruction ends in a next state: no meaning faults or refuses (R190). -/
theorem exec_isNext (i : Instr) (s : State) : ∃ t, exec i s = .next t := by
  cases i <;> exact ⟨_, rfl⟩

/-- Running a code word never refuses: it answers a next state, or stops at a word that is no frame (log 7). -/
theorem runWord_ne_refused (w : CodeWord) (s : State) (r : Refusal) : runWord w s ≠ .refused r := by
  unfold runWord
  split
  · rename_i i _
    obtain ⟨t, ht⟩ := exec_isNext i s
    simp [ht]
  · simp
  · simp

/-- Nothing that stands at the ports is refused. -/
theorem serve_ne_refused (s : State) (r : Refusal) : serve s ≠ .refused r := by
  unfold serve
  split
  case h_4 => exact runWord_ne_refused _ _ r
  all_goals simp

/-- `step` refuses for the configuration's sake, and for nothing else (log 12). -/
theorem step_refused_iff (s : State) : step s = .refused .badConfiguration ↔ s.cfg.wf = false := by
  cases h : s.cfg.wf <;> simp [step, h, serve_ne_refused]

/-- Settles O31: `step` refuses exactly a configuration that is not well formed, and that is one that breaks R8. -/
theorem badConfigurationIsRefused : Obligations.BadConfigurationIsRefused := by
  intro s
  rw [step_refused_iff, Config_wf_eq_false_iff]

end Sys2Proof.Machine
end

section
/-! The ticks of a command run to its end (log 10), and the whole-command meaning of R9 they agree with. -/

namespace Sys2Proof.Machine

open Sys2Proof

/-! ## Draining: how many ticks are run does not matter once they reach the end -/

/-- A tick of a command under way ends it, or leaves it a smaller bound. -/
theorem tick_cost_lt {s : State} {fl : Flight} (h : s.seq = some fl) :
    (tick s).seq = none ∨ ∃ fl', (tick s).seq = some fl' ∧ fl'.cost < fl.cost := by
  rcases tick_cases h with ⟨_, ht⟩ | ⟨a, rest, htodo, ht⟩
  · exact .inl (by rw [ht]; rfl)
  · obtain ⟨fl', hseq, _, hcost, _⟩ := State.perform_spec a { fl with todo := rest } s
    refine .inr ⟨fl', by rw [ht]; exact hseq, ?_⟩
    simp only [Flight.cost, htodo, List.map_cons, List.sum_cons] at hcost ⊢
    omega

/-- A command's bound of ticks brings it to its end. -/
theorem ticks_seq_eq_none {n : Nat} {s : State} {fl : Flight} (h : s.seq = some fl) (hn : fl.cost ≤ n) :
    (ticks n s).seq = none := by
  induction n generalizing s fl with
  | zero => simp [Flight.cost] at hn
  | succ n ih =>
    rcases tick_cost_lt h with hend | ⟨fl', hfl', hlt⟩
    · rw [ticks, ticks_idle hend]
      exact hend
    · exact ih hfl' (by omega)

/-- Past its bound further ticks change nothing: the command has drained. -/
theorem ticks_eq_drain {n : Nat} {s : State} {fl : Flight} (h : s.seq = some fl) (hn : fl.cost ≤ n) :
    ticks n s = s.drain := by
  obtain ⟨k, rfl⟩ := Nat.exists_eq_add_of_le hn
  rw [ticks_add, ticks_idle (ticks_seq_eq_none h le_rfl)]
  simp [State.drain, h]

/-- An idle machine has nothing to drain. -/
theorem drain_idle {s : State} (h : s.seq = none) : s.drain = s := by
  simp [State.drain, h]

/-- A tick is part of the drain. -/
theorem drain_tick (s : State) : (tick s).drain = s.drain := by
  cases h : s.seq with
  | none => rw [tick_idle h]
  | some fl =>
    have hs : s.drain = ticks fl.cost (tick s) := (ticks_eq_drain h (Nat.le_succ fl.cost)).symm
    rw [hs]
    rcases tick_cost_lt h with hend | ⟨fl', hfl', hlt⟩
    · rw [drain_idle hend, ticks_idle hend]
    · exact (ticks_eq_drain hfl' hlt.le).symm

/-- Any number of ticks is part of the drain. -/
theorem drain_ticks (n : Nat) (s : State) : (ticks n s).drain = s.drain := by
  induction n generalizing s with
  | zero => rfl
  | succ n ih => rw [ticks, ih, drain_tick]

/-! ## A sequence of actions, wherever it stands in a command -/

/-- `s` inside a command: its actions `todo` to do, the words `rxs` received, the latest first. -/
def State.within (i : Option Instr) (todo : List Act) (rxs : List Word16) (s : State) : State :=
  s.setSeq (some { instr := i, todo := todo, rxs := rxs })

/-- The actions `acts`, at the front of any command, take `s` to `t` and receive `rcvd` (the latest first); what the rest of the
command rests on stays. -/
structure Performs (acts : List Act) (s t : State) (rcvd : List Word16) : Prop where
  drain_eq : ∀ (i : Option Instr) (rest : List Act) (rxs : List Word16),
    (s.within i (acts ++ rest) rxs).drain = (t.within i rest (rcvd ++ rxs)).drain
  cfg_eq : t.cfg = s.cfg
  fclk_eq : t.fclk = s.fclk
  seq_eq : t.seq = s.seq

/-- The empty sequence changes nothing. -/
theorem Performs.nil (s : State) : Performs [] s s [] := ⟨fun _ _ _ => rfl, rfl, rfl, rfl⟩

/-- Two sequences of actions, one after the other. -/
theorem Performs.append {as bs : List Act} {s t u : State} {r r' : List Word16}
    (h : Performs as s t r) (h' : Performs bs t u r') : Performs (as ++ bs) s u (r' ++ r) where
  drain_eq i rest rxs := by rw [List.append_assoc, h.drain_eq, h'.drain_eq, List.append_assoc]
  cfg_eq := h'.cfg_eq.trans h.cfg_eq
  fclk_eq := h'.fclk_eq.trans h.fclk_eq
  seq_eq := h'.seq_eq.trans h.seq_eq

/-- Actions that drain alike perform alike. -/
theorem Performs.congr {as bs : List Act} {s t : State} {r : List Word16} (h : Performs as s t r)
    (heq : ∀ (i : Option Instr) (rest : List Act) (rxs : List Word16),
      (s.within i (bs ++ rest) rxs).drain = (s.within i (as ++ rest) rxs).drain) : Performs bs s t r where
  drain_eq i rest rxs := (heq i rest rxs).trans (h.drain_eq i rest rxs)
  cfg_eq := h.cfg_eq
  fclk_eq := h.fclk_eq
  seq_eq := h.seq_eq

/-- `SetTrig` (R10). -/
theorem performs_setTrig (l : Level) (s : State) : Performs [.trig l] s (s.setTrig l) [] :=
  ⟨fun i rest rxs => (drain_tick (s.within i (.trig l :: rest) rxs)).symm, rfl, rfl, rfl⟩

/-- `Wait` (R10). -/
theorem performs_waitMs (t : Nat) (s : State) : Performs [.wait t] s (s.waitMs t) [] :=
  ⟨fun i rest rxs => (drain_tick (s.within i (.wait t :: rest) rxs)).symm, rfl, rfl, rfl⟩

/-- `Txn` (R81): its five actions. -/
theorem performs_txn (w1 w2 : Word16) (s : State) :
    Performs (txnActs s.cfg w1 w2) s (s.txn w1 w2).2 [(s.txn w1 w2).1.2, (s.txn w1 w2).1.1] where
  drain_eq i rest rxs := by
    rw [State.within, ← drain_ticks 5, ticks_txnActs]
    rfl
  cfg_eq := rfl
  fclk_eq := rfl
  seq_eq := rfl

/-- `MemWrite` (R82): the echo is the last word received. -/
theorem performs_memWrite (a d : Word16) (s : State) :
    Performs (writeActs s.cfg a d) s (s.memWrite a d).2 [(s.memWrite a d).1, s.rx 0] :=
  performs_txn a d s

/-- `MemRead` (R83): the register's word is the last word received. -/
theorem performs_memRead (a : Word16) (s : State) :
    Performs (readActs s.cfg a) s (s.memRead a).2 [(s.memRead a).1, s.rx 0] :=
  performs_txn _ _ s

/-! ## The sub-sequences of the pattern commands (R151, R152, R155) -/

/-- Where the run bit reads as clear: the whole-register write and the wait. -/
theorem performs_setRun (s : State) :
    Performs (setRunActs s.cfg) s ((s.writePatStatus s.cfg.runValue).waitMs s.cfg.tRun)
      [(s.memWrite (addr16 s.cfg.aPatStatus) s.cfg.runValue).1, s.rx 0] :=
  (performs_memWrite _ _ s).append (performs_waitMs _ _)

/-- The test of the run bit, on the word received last: done when it is set, else the actions that set it come first. -/
theorem drain_checkRun (s : State) (i : Option Instr) (rest : List Act) (w : Word16) (rxs : List Word16) :
    (s.within i (.checkRun :: rest) (w :: rxs)).drain =
      if runBitSet s.cfg w then (s.within i rest (w :: rxs)).drain
      else (s.within i (setRunActs s.cfg ++ rest) (w :: rxs)).drain := by
  rw [← drain_tick]
  cases h : runBitSet s.cfg w <;>
    simp [tick, State.within, State.perform, rxAgo, h, State.setSeq]

/-- `EnsureRun` (R151), in both branches of its test: the read, and where the run bit reads as clear the actions that set it. -/
theorem performs_ensureRun (s : State) : ∃ rcvd, Performs (ensureActs s.cfg) s s.ensureRun rcvd := by
  rcases hread : s.memRead (addr16 s.cfg.aPatStatus) with ⟨w, t⟩
  have read : Performs (readActs s.cfg (addr16 s.cfg.aPatStatus)) s t [w, s.rx 0] := by
    simpa only [hread] using performs_memRead (addr16 s.cfg.aPatStatus) s
  have setRun := performs_setRun t
  rw [read.cfg_eq] at setRun
  have test : ∀ i rest rxs, (s.within i (ensureActs s.cfg ++ rest) rxs).drain =
      if runBitSet s.cfg w then (t.within i rest (w :: s.rx 0 :: rxs)).drain
      else (t.within i (setRunActs s.cfg ++ rest) (w :: s.rx 0 :: rxs)).drain := by
    intro i rest rxs
    rw [ensureActs, List.append_assoc, read.drain_eq, ← read.cfg_eq]
    exact drain_checkRun t i rest w _
  unfold State.ensureRun
  by_cases runs : runBitSet s.cfg w = true
  · simp only [hread, runs, if_true] at test ⊢
    exact ⟨_, read.congr fun i rest rxs => by rw [test, read.drain_eq]; rfl⟩
  · simp only [hread, runs, Bool.false_eq_true, if_false] at test ⊢
    exact ⟨_, (read.append setRun).congr fun i rest rxs => by rw [test, List.append_assoc, read.drain_eq]; rfl⟩

/-- `StartSeq` (R152). -/
theorem performs_startSeq (s : State) : ∃ rcvd, Performs (startActs s.cfg) s s.startSeq rcvd := by
  unfold startActs State.startSeq
  split
  · obtain ⟨r, h⟩ := performs_ensureRun s
    exact ⟨_, h.append (performs_setTrig false _)⟩
  · exact ⟨_, (Performs.nil s).append (performs_setTrig false s)⟩

/-- The `case UPD_RUN_MODE` (R155). -/
theorem performs_updateRun (s : State) : ∃ rcvd, Performs (updateRunActs s.cfg) s s.updateRun rcvd := by
  unfold updateRunActs State.updateRun
  cases s.cfg.updRunMode with
  | none => exact ⟨_, .nil s⟩
  | reassert => exact ⟨_, performs_memWrite _ _ s⟩
  | recheck => exact performs_ensureRun s

/-- Stop, wait, commit (R155). -/
theorem performs_commitSeq (s : State) :
    ∃ rcvd, Performs ([Act.trig true, .wait s.cfg.tUpd1] ++ writeActs s.cfg (addr16 s.cfg.aRamUpdate) s.cfg.vRamUpdate) s
      s.commitSeq rcvd :=
  ⟨_, ((performs_setTrig true s).append (performs_waitMs s.cfg.tUpd1 _)).append
    (performs_memWrite _ _ (s.stopSeq.waitMs s.cfg.tUpd1))⟩

/-- Everything `PAT_UPDATE` does before its response (R155). -/
theorem performs_updateSeq (s : State) :
    ∃ rcvd, Performs (commandActs .patUpdate s) s (s.commitSeq.updateRun.waitMs s.cfg.tUpd2).startSeq rcvd := by
  obtain ⟨_, commit⟩ := performs_commitSeq s
  obtain ⟨_, run⟩ := performs_updateRun s.commitSeq
  have before := (commit.append run).append (performs_waitMs s.cfg.tUpd2 s.commitSeq.updateRun)
  obtain ⟨_, start⟩ := performs_startSeq (s.commitSeq.updateRun.waitMs s.cfg.tUpd2)
  rw [before.cfg_eq] at start
  exact ⟨_, before.append start⟩

/-- `PAT_SHUTDOWN` before its response, in either mode (R156). -/
theorem performs_shutdownSeq (s : State) :
    ∃ t rcvd, Performs (commandActs .patShutdown s) s.accept t rcvd ∧ exec .patShutdown s = .next (t.respond {}) := by
  have stop := performs_setTrig true s.accept
  have clear := performs_memWrite (addr16 s.cfg.aPatStatus) 0x0000#16 s.accept.stopSeq
  unfold commandActs exec execPatShutdown
  cases s.cfg.shutdownMode with
  | triggerOnly => exact ⟨_, _, stop, rfl⟩
  | clearRun => exact ⟨_, _, stop.append clear, rfl⟩

/-! ## The conditions of R199 -/

/-- A stop's effect: the fault (R191) or the InvalidParameter outcome (R197). -/
def Stop.take (st : Stop) (s : State) : State :=
  match st with
  | .fault k => s.raiseFault k
  | .invalidParameter => s.invalidParameter

/-- A channel command is stopped by the fault of `Resolve`. -/
theorem channelVerdict_eq_some {base : Word16} {ch : Chan} {st : Stop} :
    verdict.channelVerdict base ch = some st ↔ ∃ k, resolve base ch = .faults k ∧ .fault k = st := by
  unfold verdict.channelVerdict
  cases resolve base ch <;> simp

/-- A channel command is OK where `Resolve` answers an address. -/
theorem channelVerdict_eq_none {base : Word16} {ch : Chan} :
    verdict.channelVerdict base ch = none ↔ resolve base ch = .ok (resolvedAddr base ch) := by
  unfold verdict.channelVerdict resolvedAddr
  cases resolve base ch <;> simp

/-- The channel commands' common part, where `Resolve` answers an address (R100). -/
theorem State.withResolved_ok {base : Word16} {ch : Chan} {a : Word16} (h : resolve base ch = .ok a) (s : State)
    (k : Word16 → State) : s.withResolved base ch k = k a := by
  simp [State.withResolved, h]

/-- The channel commands' common part, where `Resolve` faults (R100). -/
theorem State.withResolved_faults {base : Word16} {ch : Chan} {f : FaultKind} (h : resolve base ch = .faults f)
    (s : State) (k : Word16 → State) : s.withResolved base ch k = s.raiseFault f := by
  simp [State.withResolved, h]

/-! ## The whole-command meaning, by its outcome -/

/-- A command that meets a condition of R199 does that stop, and nothing else. -/
theorem exec_of_verdict_some {i : Instr} {s : State} {st : Stop} (h : verdict (some i) s = some st) :
    exec i s = .next (st.take s.accept) := by
  cases i
  case regWrite | regRead | frameWrite | frameRead =>
    obtain ⟨high, ⟨⟩⟩ := Option.ite_none_right_eq_some.mp h
    simp [exec, execRegWrite, execRegRead, execFrameWrite, execFrameRead, State.checkedWrite, State.checkedRead, high,
      Stop.take]
  case chResolve | chWrite | chRead =>
    obtain ⟨k, faults, rfl⟩ := channelVerdict_eq_some.mp h
    simp [exec, execChResolve, execChWrite, execChRead, State.withResolved_faults faults, Stop.take]
  case freqEncode | setFreq =>
    obtain ⟨outside, ⟨⟩⟩ := Option.ite_none_left_eq_some.mp h
    simp [exec, execFreqEncode, execSetFreq, outside, Stop.take]
  case setFclk hz =>
    obtain ⟨bad, ⟨⟩⟩ := Option.ite_none_right_eq_some.mp h
    simp [exec, execSetFclk, bad, Stop.take]
  case freqDecode | getFreq | patStop | patStart | patUpdate | patShutdown | errSet => cases h

/-- A checked write whose address is a register's (R84). -/
theorem performs_checkedWrite {addr : Word16} (legal : ¬ addrTooHigh addr = true) (data : Word16) (s : State) :
    ∃ t rcvd, Performs (writeActs s.cfg addr data) s t rcvd ∧
      s.checkedWrite addr data = t.respond { d0 := rxAgo rcvd 0 } :=
  ⟨_, _, performs_memWrite addr data s, by simp [State.checkedWrite, legal, rxAgo]⟩

/-- A checked read whose address is a register's (R85). -/
theorem performs_checkedRead {addr : Word16} (legal : ¬ addrTooHigh addr = true) (s : State) :
    ∃ t rcvd, Performs (readActs s.cfg addr) s t rcvd ∧ s.checkedRead addr = t.respond { d0 := rxAgo rcvd 0 } :=
  ⟨_, _, performs_memRead addr s, by simp [State.checkedRead, legal, rxAgo]⟩

/-- A command that meets none does its actions, and ends as `complete` says from the words they received. -/
theorem exec_of_verdict_none {i : Instr} {s : State} (h : verdict (some i) s = none) :
    ∃ t rcvd, Performs (commandActs i s) s.accept t rcvd ∧ exec i s = .next (complete i rcvd t) := by
  cases i with
  | regWrite addr data =>
    have legal : ¬ addrTooHigh addr = true := by simpa [verdict] using h
    obtain ⟨t, rcvd, acts, hend⟩ := performs_checkedWrite legal data s.accept
    exact ⟨t, rcvd, acts, congrArg _ hend⟩
  | regRead addr =>
    have legal : ¬ addrTooHigh addr = true := by simpa [verdict] using h
    obtain ⟨t, rcvd, acts, hend⟩ := performs_checkedRead legal s.accept
    exact ⟨t, rcvd, acts, congrArg _ hend⟩
  | chResolve base ch =>
    have ok := channelVerdict_eq_none.mp h
    exact ⟨_, _, .nil s.accept, by simp [exec, execChResolve, State.withResolved_ok ok, complete]⟩
  | chWrite base ch data =>
    have ok := channelVerdict_eq_none.mp h
    exact ⟨_, _, performs_memWrite (resolvedAddr base ch) data s.accept, by
      simp [exec, execChWrite, State.withResolved_ok ok, complete, rxAgo]⟩
  | chRead base ch =>
    have ok := channelVerdict_eq_none.mp h
    exact ⟨_, _, performs_memRead (resolvedAddr base ch) s.accept, by
      simp [exec, execChRead, State.withResolved_ok ok, complete, rxAgo]⟩
  | freqEncode freq =>
    have inRange : freqInRange freq s.fclk = true := by simpa [verdict] using h
    exact ⟨_, _, .nil s.accept, by simp [exec, execFreqEncode, inRange, complete]⟩
  | freqDecode msb lsb => exact ⟨_, _, .nil s.accept, rfl⟩
  | setFreq freq =>
    have inRange : freqInRange freq s.fclk = true := by simpa [verdict] using h
    have upper := performs_memWrite (addr16 s.cfg.aDdsTwMsb) (splitTw (encodeTw freq s.fclk)).1 s.accept
    have both := upper.append (performs_memWrite (addr16 s.cfg.aDdsTwLsb) (splitTw (encodeTw freq s.fclk)).2 _)
    exact ⟨_, _, both, by simp [exec, execSetFreq, inRange, complete, both.fclk_eq]⟩
  | getFreq =>
    have upper := performs_memRead (addr16 s.cfg.aDdsTwMsb) s.accept
    have both := upper.append (performs_memRead (addr16 s.cfg.aDdsTwLsb) _)
    exact ⟨_, _, both, by simp [exec, execGetFreq, complete, rxAgo, both.fclk_eq]⟩
  | setFclk hz =>
    have legal : ¬ clockBad hz = true := by simpa [verdict] using h
    exact ⟨_, _, .nil s.accept, by simp [exec, execSetFclk, legal, complete]⟩
  | patStop => exact ⟨_, _, performs_setTrig true s.accept, rfl⟩
  | patStart =>
    obtain ⟨rcvd, start⟩ := performs_startSeq s.accept
    exact ⟨_, rcvd, start, rfl⟩
  | patUpdate =>
    obtain ⟨rcvd, update⟩ := performs_updateSeq s.accept
    exact ⟨_, rcvd, update, rfl⟩
  | patShutdown => exact performs_shutdownSeq s
  | errSet code => exact ⟨_, _, .nil s.accept, rfl⟩
  | frameWrite a d =>
    have legal : ¬ addrTooHigh (addr16 a) = true := by simpa [verdict] using h
    obtain ⟨t, rcvd, acts, hend⟩ := performs_checkedWrite legal d s.accept
    exact ⟨t, rcvd, acts, congrArg _ hend⟩
  | frameRead a =>
    have legal : ¬ addrTooHigh (addr16 a) = true := by simpa [verdict] using h
    obtain ⟨t, rcvd, acts, hend⟩ := performs_checkedRead legal s.accept
    exact ⟨t, rcvd, acts, congrArg _ hend⟩

/-! ## The tick machine, by its outcome -/

/-- Setting the position to what it is. -/
theorem State.setSeq_of_seq {s : State} {p : Option Flight} (h : s.seq = p) : s.setSeq p = s := by
  subst h
  rfl

/-- A stop neither reads nor writes the position. -/
theorem Stop.take_setSeq (st : Stop) (p : Option Flight) (s : State) :
    st.take (s.setSeq p) = (st.take s).setSeq p := by
  cases st <;> rfl

/-- An ending neither reads nor writes the position. -/
theorem complete_setSeq (i : Instr) (rxs : List Word16) (p : Option Flight) (s : State) :
    complete i rxs (s.setSeq p) = (complete i rxs s).setSeq p := by
  cases i <;> rfl

/-- The end of a command that a condition stops. -/
theorem finish_of_verdict_some {fl : Flight} {s : State} {st : Stop} (h : verdict fl.instr s = some st) :
    finish fl s = st.take s := by
  simp only [finish, h]
  cases st <;> rfl

/-- The end of a command that is OK. -/
theorem finish_of_verdict_none {fl : Flight} {s : State} {i : Instr} (hi : fl.instr = some i)
    (h : verdict (some i) s = none) : finish fl s = complete i fl.rxs s := by
  simp only [finish, hi, h]

/-- With no action left the drain is the command's end. -/
theorem drain_within_nil (i : Option Instr) (rxs : List Word16) (s : State) :
    (s.within i [] rxs).drain = (finish { instr := i, todo := [], rxs := rxs } (s.within i [] rxs)).setSeq none := by
  rw [← drain_tick]
  exact drain_idle rfl

/-- A command that a condition stops plans no action, and its ticks do the stop. -/
theorem launch_drain_of_verdict_some {i : Option Instr} {s : State} {st : Stop} (hs : s.seq = none)
    (h : verdict i s = some st) : (s.launch i).drain = st.take s.accept := by
  have hplan : plan i s = [] := by simp [plan, h]
  have hend : verdict i (s.accept.within i [] []) = some st := (verdict_congr i rfl).trans h
  calc (s.launch i).drain
      = (s.accept.within i [] []).drain := by rw [State.launch, hplan]; rfl
    _ = (st.take (s.accept.within i [] [])).setSeq none := by rw [drain_within_nil, finish_of_verdict_some hend]
    _ = st.take (s.accept.setSeq none) := by rw [State.within, Stop.take_setSeq, Stop.take_setSeq]; rfl
    _ = st.take s.accept := congrArg st.take (State.setSeq_of_seq hs)

/-- The ticks of a command that is OK do its actions and then its ending. -/
theorem launch_drain_of_verdict_none {i : Instr} {s t : State} {rcvd : List Word16} (hs : s.seq = none)
    (h : verdict (some i) s = none) (acts : Performs (commandActs i s) s.accept t rcvd) :
    (s.launch (some i)).drain = complete i rcvd t := by
  have hplan : plan (some i) s = commandActs i s ++ [] := by simp [plan, h]
  have hend : verdict (some i) (t.within (some i) [] (rcvd ++ [])) = none := (verdict_congr (some i) acts.fclk_eq).trans h
  calc (s.launch (some i)).drain
      = (s.accept.within (some i) (commandActs i s ++ []) []).drain := by rw [State.launch, hplan]; rfl
    _ = (t.within (some i) [] (rcvd ++ [])).drain := acts.drain_eq _ _ _
    _ = (complete i (rcvd ++ []) (t.within (some i) [] (rcvd ++ []))).setSeq none := by
          rw [drain_within_nil, finish_of_verdict_none rfl hend]
    _ = complete i rcvd (t.setSeq none) := by rw [State.within, complete_setSeq, complete_setSeq, List.append_nil]; rfl
    _ = complete i rcvd t := by rw [State.setSeq_of_seq (acts.seq_eq.trans hs)]

/-- For an instruction the ticks end where `exec` does. -/
theorem exec_eq_launch_drain (i : Instr) {s : State} (hs : s.seq = none) :
    exec i s = .next (s.launch (some i)).drain := by
  cases h : verdict (some i) s with
  | some st => rw [launch_drain_of_verdict_some hs h, exec_of_verdict_some h]
  | none =>
    obtain ⟨t, rcvd, acts, hexec⟩ := exec_of_verdict_none h
    rw [launch_drain_of_verdict_none hs h acts, hexec]

/-- Settles O56: by the outcome of R199, the tick machine and the whole-command meaning end alike; an illegal word is a command
that is always stopped. -/
theorem ticksRunTheWholeCommand : Obligations.TicksRunTheWholeCommand :=
  ⟨fun i _ hs => exec_eq_launch_drain i hs, fun _ hs => (launch_drain_of_verdict_some (st := .fault .illegalCmd) hs rfl).symm⟩

end Sys2Proof.Machine
end

section
/-! What every tick of a command keeps, and what therefore holds between any two ticks and at its end (10_state.md R24, R32, R34;
log 10). -/

namespace Sys2Proof.Machine

open Sys2Proof

/-! ## The induction over ticks -/

/-- What every tick keeps, any number of ticks keeps. -/
theorem ticks_keeps {P : State → Prop} (keep : ∀ s, P s → P (tick s)) (n : Nat) {s : State} (hs : P s) :
    P (ticks n s) := by
  induction n generalizing s with
  | zero => exact hs
  | succ n ih => exact ih (keep s hs)

/-- The drain is a number of ticks. -/
theorem drain_eq_ticks (s : State) : ∃ n, s.drain = ticks n s := by
  cases h : s.seq with
  | none => exact ⟨0, drain_idle h⟩
  | some fl => exact ⟨fl.cost, (ticks_eq_drain h le_rfl).symm⟩

/-- What every tick keeps, the drain keeps. -/
theorem drain_keeps {P : State → Prop} (keep : ∀ s, P s → P (tick s)) {s : State} (hs : P s) : P s.drain := by
  obtain ⟨n, hn⟩ := drain_eq_ticks s
  exact hn ▸ ticks_keeps keep n hs

/-- A drained machine is idle. -/
theorem drain_seq (s : State) : s.drain.seq = none := by
  cases h : s.seq with
  | none => rwa [drain_idle h]
  | some fl => rw [← ticks_eq_drain h le_rfl, ticks_seq_eq_none h le_rfl]

/-- The drain changes no configuration and takes no offer. -/
theorem drain_cfg_requests (s : State) : s.drain.cfg = s.cfg ∧ s.drain.requests = s.requests := by
  obtain ⟨n, hn⟩ := drain_eq_ticks s
  exact hn ▸ ticks_cfg_requests n s

/-! ## `BUSY` and the response -/

/-- The command has ended and answered, or it is under way and `BUSY` and the response still stand at `b` and `r`. -/
def State.AnsweredOr (b : Bool) (r : Option Response) (s : State) : Prop :=
  (s.seq = none ∧ s.busy = false ∧ s.rsp ≠ none) ∨ (s.seq ≠ none ∧ s.busy = b ∧ s.rsp = r)

/-- `BUSY` and the response change at the command's end only (R24). -/
theorem tick_answeredOr {b : Bool} {r : Option Response} (s : State) (h : s.AnsweredOr b r) :
    (tick s).AnsweredOr b r := by
  cases hseq : s.seq with
  | none => rwa [tick_idle hseq]
  | some fl =>
    obtain ⟨idle, _⟩ | ⟨_, hbusy, hrsp⟩ := h
    · simp [hseq] at idle
    · rcases tick_cases hseq with ⟨_, ended⟩ | ⟨a, rest, _, acted⟩
      · obtain ⟨busyLow, answered, _⟩ := finish_spec fl s
        rw [ended]
        exact .inl ⟨rfl, busyLow, answered⟩
      · obtain ⟨fl', hseq', _, _, hbusy', hrsp', _⟩ := State.perform_spec a { fl with todo := rest } s
        rw [acted]
        exact .inr ⟨by simp [hseq'], hbusy'.trans hbusy, hrsp'.trans hrsp⟩

/-- A command under way at any position ends with `BUSY` 0 and a response (R24). -/
theorem drain_answers {s : State} (h : s.seq ≠ none) : s.drain.busy = false ∧ s.drain.rsp ≠ none := by
  have start : s.AnsweredOr s.busy s.rsp := .inr ⟨h, rfl, rfl⟩
  obtain ⟨_, answered⟩ | ⟨busy, _⟩ := drain_keeps tick_answeredOr start
  · exact answered
  · exact absurd (drain_seq s) busy

/-- Settles O57: the bound of ticks is a measure that every tick lowers, and the end answers. -/
theorem ticksReachTheEnd : Obligations.TicksReachTheEnd := by
  intro s fl h
  obtain ⟨busyLow, answered⟩ := drain_answers (s := s) (by simp [h])
  exact ⟨drain_seq s, busyLow, answered, (drain_cfg_requests s).2, fun n hn => ticks_eq_drain h hn⟩

/-- Settles O58: a launched command starts with `BUSY` 1 and no response, and every tick keeps them until the end. -/
theorem busyWhileACommandRuns : Obligations.BusyWhileACommandRuns := by
  intro i s k
  have start : (s.launch i).AnsweredOr true none := .inr ⟨by simp [State.launch], rfl, rfl⟩
  obtain ⟨hseq, hbusy, hrsp⟩ | ⟨hseq, hbusy, hrsp⟩ := ticks_keeps tick_answeredOr k start
  · simp [hseq, hbusy, hrsp]
  · simp [hseq, hbusy, hrsp]

/-! ## The event history -/

/-- A tick only adds events. -/
theorem tick_hist (s : State) : s.hist <+: (tick s).hist := by
  cases hseq : s.seq with
  | none => rw [tick_idle hseq]
  | some fl =>
    rcases tick_cases hseq with ⟨_, ended⟩ | ⟨a, rest, _, acted⟩
    · obtain ⟨_, _, hist, _⟩ := finish_spec fl s
      simp [ended, hist]
    · obtain ⟨_, _, _, _, _, _, _, _, _, added⟩ := State.perform_spec a { fl with todo := rest } s
      rwa [acted]

/-- A history that a state begins with, it begins with after a tick. -/
theorem tick_keeps_hist {h : List Event} (s : State) (hs : h <+: s.hist) : h <+: (tick s).hist :=
  hs.trans (tick_hist s)

/-- Settles O60: ticks only add events, and the ticks still to come complete the command. -/
theorem ticksEmitThePrefix : Obligations.TicksEmitThePrefix := by
  intro i s k hs
  refine ⟨_, exec_eq_launch_drain i hs, ticks_keeps tick_keeps_hist k List.prefix_rfl, ?_⟩
  rw [← drain_ticks k]
  exact drain_keeps tick_keeps_hist List.prefix_rfl

end Sys2Proof.Machine
end

section
/-! What a step answers at the ports (10_state.md R22, R24; 70_reset_and_hazards.md R220, R221), and the state after reset. -/

namespace Sys2Proof.Machine

open Sys2Proof

/-! ## Serving the ports -/

/-- A well-formed configuration lets the ports be served (R8). -/
theorem step_of_wf {s : State} (h : s.cfg.wf = true) : step s = serve s := if_pos h

/-- While `BUSY` is 1 only a reset is served: the command under way runs to its end (R24). -/
theorem serve_of_busy {s : State} (hbusy : s.busy = true) (noReset : ∀ rest, s.requests ≠ .reset :: rest) :
    serve s = .next s.drain := by
  unfold serve
  split
  case h_1 rest hreq => exact absurd hreq (noReset rest)
  case h_2 => rfl
  all_goals simp_all

/-- A word offered while DDSC is free is run with the offer taken. -/
theorem serve_of_offer {s : State} {w : CodeWord} {rest : List Request} (hbusy : s.busy = false)
    (hreq : s.requests = .offer w :: rest) : serve s = runWord w (s.withRequests rest) := by
  simp only [serve, hreq, hbusy]

/-- A word that decodes runs its instruction (R70). -/
theorem runWord_of_instr {w : CodeWord} {i : Instr} (h : decode w = .instr i) (s : State) :
    runWord w s = exec i s := by
  simp only [runWord, h]

/-- Settles O27: the one step is the drain, which answers and leaves the offers. -/
theorem busyHoldsTheOffer : Obligations.BusyHoldsTheOffer := by
  intro s fl hwf hbusy hseq noReset
  obtain ⟨busyLow, answered⟩ := drain_answers (s := s) (by simp [hseq])
  have hstep : step s = .next s.drain := (step_of_wf hwf).trans (serve_of_busy hbusy noReset)
  exact ⟨s.drain, hstep, (drain_cfg_requests s).2, busyLow, drain_seq s, answered⟩

/-- Settles O24: the step serves the offer, and the word runs its instruction. -/
theorem stepRunsTheDecodedInstruction : Obligations.StepRunsTheDecodedInstruction := by
  intro s w rest i ⟨hwf, hbusy, _⟩ hreq hdec
  calc step s
      = serve s := step_of_wf hwf
    _ = runWord w (s.withRequests rest) := serve_of_offer hbusy hreq
    _ = exec i { s with requests := rest } := runWord_of_instr hdec _

/-- Settles O32: the default configuration's reset state, field by field. -/
theorem resetValues : Obligations.ResetValues := by
  refine ⟨rfl, rfl, ?fclk, rfl, rfl, rfl, rfl, rfl, rfl⟩
  case fclk => decide

end Sys2Proof.Machine
end

section
/-! The bus protocol between any two ticks (10_state.md R28; 20_memory.md R50; 30_encoding.md R68, R69;
70_reset_and_hazards.md R225), and the good states it keeps good. -/

namespace Sys2Proof.Machine

open Sys2Proof

/-! ## The bus monitor read on actions -/

/-- One action under the bus monitor: that of its event, whatever the chip answers. The test of the run bit can bring further
transactions, so it must stand between transactions. -/
def Monitor.act (tSettle : Nat) (m : Monitor) : Act → Option Monitor
  | .cs l => m.next tSettle (.cs l)
  | .xchg tx => m.next tSettle (.xchg tx 0)
  | .trig l => m.next tSettle (.trig l)
  | .wait t => m.next tSettle (.wait t)
  | .checkRun => if m = Monitor.start then some Monitor.start else none

/-- The actions keep the protocol from `m` on, and end between transactions with the settle time passed. -/
def Monitor.Settles (tSettle : Nat) : Monitor → List Act → Prop
  | m, [] => m = Monitor.start
  | m, a :: as => ∃ m', m.act tSettle a = some m' ∧ Monitor.Settles tSettle m' as

/-- Two sequences of actions, one after the other. -/
theorem Monitor.Settles.append {tSettle : Nat} {m : Monitor} {as bs : List Act} (h : m.Settles tSettle as)
    (h' : Monitor.start.Settles tSettle bs) : m.Settles tSettle (as ++ bs) := by
  induction as generalizing m with
  | nil => exact h ▸ h'
  | cons a as ih =>
    obtain ⟨m', act, rest⟩ := h
    exact ⟨m', act, ih rest⟩

/-- What the chip answers is nothing to the monitor (R45). -/
theorem Monitor.next_xchg (tSettle : Nat) (m : Monitor) (tx rx : Word16) :
    m.next tSettle (.xchg tx rx) = m.next tSettle (.xchg tx 0) := rfl

/-- The test of the run bit passes between transactions only. -/
theorem Monitor.act_checkRun {tSettle : Nat} {m m' : Monitor} (h : m.act tSettle .checkRun = some m') :
    m = Monitor.start ∧ m' = Monitor.start := by
  obtain ⟨rest, ⟨⟩⟩ := Option.ite_none_right_eq_some.mp h
  exact ⟨rest, rfl⟩

/-! ## The actions of a command -/

/-- A transaction with a register's address and, for a read, a zero dummy (R50, R68, R69, R225). -/
theorem settles_txnActs (c : Config) {w1 w2 : Word16} (ha : (w1 &&& 0x7FFF#16).toNat ≤ addrMax)
    (hd : w1.getLsbD 15 = true → w2 = 0) : Monitor.start.Settles c.tSettle (txnActs c w1 w2) := by
  have dummy : ¬ (w1.getLsbD 15 = true ∧ w2 ≠ 0) := fun h => h.2 (hd h.1)
  refine ⟨_, rfl, _, if_pos ha, _, if_neg dummy, _, rfl, _, rfl, ?settled⟩
  case settled => simp [Monitor.Settles, Monitor.start]

/-- A 16-bit address in the register domain has bit 15 clear (R67, R89). -/
theorem bit15_of_legal {a : Word16} (ha : a.toNat ≤ addrMax) : a.getLsbD 15 = false :=
  Nat.testBit_lt_two_pow (lt_of_le_of_lt ha (by decide))

/-- The address field of a legal address is legal. -/
theorem addrField_of_legal {a : Word16} (ha : a.toNat ≤ addrMax) : (a &&& 0x7FFF#16).toNat ≤ addrMax := by
  rw [BitVec.toNat_and]
  exact Nat.and_le_left.trans ha

/-- The read bit is no part of the address field (R67). -/
theorem addrField_read (a : Word16) : (a ||| 0x8000#16) &&& 0x7FFF#16 = a &&& 0x7FFF#16 := by
  have apart : (0x8000#16) &&& 0x7FFF#16 = 0#16 := rfl
  rw [BitVec.and_comm, BitVec.and_or_distrib_left, BitVec.and_comm _ 0x8000#16, apart, BitVec.or_zero, BitVec.and_comm]

/-- `MemWrite` (R82). -/
theorem settles_writeActs (c : Config) {a : Word16} (ha : a.toNat ≤ addrMax) (d : Word16) :
    Monitor.start.Settles c.tSettle (writeActs c a d) :=
  settles_txnActs c (addrField_of_legal ha) fun h => absurd ((bit15_of_legal ha).symm.trans h) Bool.false_ne_true

/-- `MemRead` (R83). -/
theorem settles_readActs (c : Config) {a : Word16} (ha : a.toNat ≤ addrMax) :
    Monitor.start.Settles c.tSettle (readActs c a) :=
  settles_txnActs c (addrField_read a ▸ addrField_of_legal ha) fun _ => rfl

/-- Driving the trigger line. -/
theorem settles_trig (tSettle : Nat) (l : Level) : Monitor.start.Settles tSettle [.trig l] := ⟨_, rfl, rfl⟩

/-- Waiting. -/
theorem settles_wait (tSettle t : Nat) : Monitor.start.Settles tSettle [.wait t] :=
  ⟨_, rfl, by simp [Monitor.Settles, Monitor.start]⟩

/-- `EnsureRun` up to its test (R151). -/
theorem settles_ensureActs {c : Config} (hc : c.wf = true) : Monitor.start.Settles c.tSettle (ensureActs c) := by
  obtain ⟨status, _⟩ := Config_wf_addresses hc
  exact (settles_readActs c status).append ⟨_, rfl, rfl⟩

/-- `EnsureRun` where the run bit reads as clear (R151). -/
theorem settles_setRunActs {c : Config} (hc : c.wf = true) : Monitor.start.Settles c.tSettle (setRunActs c) := by
  obtain ⟨status, _⟩ := Config_wf_addresses hc
  exact (settles_writeActs c status _).append (settles_wait _ _)

/-- `StartSeq` (R152). -/
theorem settles_startActs {c : Config} (hc : c.wf = true) : Monitor.start.Settles c.tSettle (startActs c) := by
  unfold startActs
  split
  · exact (settles_ensureActs hc).append (settles_trig _ _)
  · exact settles_trig _ _

/-- The `case UPD_RUN_MODE` (R155). -/
theorem settles_updateRunActs {c : Config} (hc : c.wf = true) : Monitor.start.Settles c.tSettle (updateRunActs c) := by
  obtain ⟨status, _⟩ := Config_wf_addresses hc
  unfold updateRunActs
  cases c.updRunMode with
  | none => rfl
  | reassert => exact settles_writeActs c status _
  | recheck => exact settles_ensureActs hc

/-- `PAT_UPDATE` (R155). -/
theorem settles_updateActs {s : State} (hc : s.cfg.wf = true) :
    Monitor.start.Settles s.cfg.tSettle (commandActs .patUpdate s) := by
  obtain ⟨_, commit, _⟩ := Config_wf_addresses hc
  have stopped := (settles_trig s.cfg.tSettle true).append (settles_wait _ s.cfg.tUpd1)
  have committed := stopped.append (settles_writeActs s.cfg commit s.cfg.vRamUpdate)
  have updated := (committed.append (settles_updateRunActs hc)).append (settles_wait _ s.cfg.tUpd2)
  exact updated.append (settles_startActs hc)

/-- `PAT_SHUTDOWN` (R156). -/
theorem settles_shutdownActs {s : State} (hc : s.cfg.wf = true) :
    Monitor.start.Settles s.cfg.tSettle (commandActs .patShutdown s) := by
  obtain ⟨status, _⟩ := Config_wf_addresses hc
  have stopped := settles_trig s.cfg.tSettle true
  unfold commandActs
  cases s.cfg.shutdownMode with
  | triggerOnly => exact stopped
  | clearRun => exact stopped.append (settles_writeActs _ status _)

/-- A checked address is a register's (R193). -/
theorem legal_of_not_addrTooHigh {a : Word16} (h : (if addrTooHigh a then some (Stop.fault .addrFault) else none) = none) :
    a.toNat ≤ addrMax := by
  simpa [addrTooHigh] using h

/-- An address that `Resolve` answers is a register's (R100, R105). -/
theorem resolvedAddr_legal {base : Word16} {ch : Chan} (h : verdict.channelVerdict base ch = none) :
    (resolvedAddr base ch).toNat ≤ addrMax := by
  have ok := channelVerdict_eq_none.mp h
  rw [resolve_spec] at ok
  split at ok
  · cases ok
  split at ok
  · cases ok
  split at ok
  · cases ok
  · rename_i _ legal _
    injection ok with addr
    rw [← addr, BitVec.toNat_ofNat, addrMax]
    have := Nat.mod_le (base.toNat - stride base * (ch.toNat - 1)) (2 ^ 16)
    omega

/-- A command that is OK keeps the bus protocol with its actions. -/
theorem settles_commandActs {i : Instr} {s : State} (hc : s.cfg.wf = true) (h : verdict (some i) s = none) :
    Monitor.start.Settles s.cfg.tSettle (commandActs i s) := by
  obtain ⟨_, _, msb, lsb⟩ := Config_wf_addresses hc
  cases i with
  | regWrite addr data => exact settles_writeActs _ (legal_of_not_addrTooHigh h) _
  | regRead addr => exact settles_readActs _ (legal_of_not_addrTooHigh h)
  | chResolve base ch => rfl
  | chWrite base ch data => exact settles_writeActs _ (resolvedAddr_legal h) _
  | chRead base ch => exact settles_readActs _ (resolvedAddr_legal h)
  | freqEncode freq => rfl
  | freqDecode msb lsb => rfl
  | setFreq freq => exact (settles_writeActs _ msb _).append (settles_writeActs _ lsb _)
  | getFreq => exact (settles_readActs _ msb).append (settles_readActs _ lsb)
  | setFclk hz => rfl
  | patStop => exact settles_trig _ _
  | patStart => exact settles_startActs hc
  | patUpdate => exact settles_updateActs hc
  | patShutdown => exact settles_shutdownActs hc
  | errSet code => rfl
  | frameWrite a d => exact settles_writeActs _ (legal_of_not_addrTooHigh h) _
  | frameRead a => exact settles_readActs _ (legal_of_not_addrTooHigh h)

/-- Any accepted command, or an illegal word, plans actions that keep the bus protocol. -/
theorem settles_plan (i : Option Instr) {s : State} (hc : s.cfg.wf = true) :
    Monitor.start.Settles s.cfg.tSettle (plan i s) := by
  unfold plan
  split
  · rename_i i h
    exact settles_commandActs hc h
  · rfl

/-! ## What every tick keeps -/

/-- The rules on a state at any moment, when the bus monitor stands at `m` after its history: those of `Good` without the
command boundary. -/
structure State.Tracks (m : Monitor) (s : State) : Prop where
  cfg : s.cfg.wf = true
  fclk : 1 ≤ s.fclk.toNat
  trigLine : lastTrig s.hist = some s.trig
  csLine : lastCs s.hist = some s.csN
  bus : Monitor.run s.cfg.tSettle (some Monitor.start) s.hist = some m

/-- The rules read nothing but the lines, `FCLK`, the history and the configuration. -/
theorem State.Tracks.congr {m : Monitor} {s t : State} (h : s.Tracks m) (cfg : t.cfg = s.cfg) (fclk : 1 ≤ t.fclk.toNat)
    (trig : t.trig = s.trig) (csN : t.csN = s.csN) (hist : t.hist = s.hist) : t.Tracks m where
  cfg := cfg ▸ h.cfg
  fclk := fclk
  trigLine := by rw [hist, trig, h.trigLine]
  csLine := by rw [hist, csN, h.csLine]
  bus := by rw [hist, cfg, h.bus]

/-- One event that the monitor allows, with the lines as it drives them. -/
theorem State.Tracks.emits {m m' : Monitor} {s t : State} {e : Event} (h : s.Tracks m)
    (next : m.next s.cfg.tSettle e = some m') (cfg : t.cfg = s.cfg) (fclk : t.fclk = s.fclk)
    (hist : t.hist = s.hist ++ [e]) (trigLine : lastTrig (s.hist ++ [e]) = some t.trig)
    (csLine : lastCs (s.hist ++ [e]) = some t.csN) : t.Tracks m' where
  cfg := cfg ▸ h.cfg
  fclk := fclk ▸ h.fclk
  trigLine := hist ▸ trigLine
  csLine := hist ▸ csLine
  bus := by rw [hist, cfg, Monitor.run_append, h.bus, ← next]; rfl

/-- The test of the run bit only says what is to do next (R151). -/
theorem State.perform_checkRun (fl : Flight) (s : State) :
    ∃ todo, (todo = fl.todo ∨ todo = setRunActs s.cfg ++ fl.todo) ∧
      s.perform .checkRun fl = s.setSeq (some { fl with todo := todo }) := by
  unfold State.perform
  by_cases runs : runBitSet s.cfg (rxAgo fl.rxs 0) = true
  · exact ⟨_, .inl rfl, if_pos runs⟩
  · exact ⟨_, .inr rfl, if_neg runs⟩

/-- An action that the monitor allows keeps the rules. -/
theorem State.Tracks.perform {m m' : Monitor} {s : State} {a : Act} (h : s.Tracks m)
    (act : m.act s.cfg.tSettle a = some m') (fl : Flight) : (s.perform a fl).Tracks m' := by
  have trigLine := h.trigLine
  have csLine := h.csLine
  unfold lastTrig at trigLine
  unfold lastCs at csLine
  cases a with
  | cs l =>
    exact h.emits (e := .cs l) act rfl rfl rfl (by simp [lastTrig, trigLine, State.perform])
      (by simp [lastCs, State.perform])
  | xchg tx =>
    exact h.emits ((Monitor.next_xchg _ m tx (s.rx 0)).trans act) rfl rfl rfl
      (by simp [lastTrig, trigLine, State.perform, State.exchange])
      (by simp [lastCs, csLine, State.perform, State.exchange])
  | trig l =>
    exact h.emits (e := .trig l) act rfl rfl rfl (by simp [lastTrig, State.perform])
      (by simp [lastCs, csLine, State.perform])
  | wait t =>
    exact h.emits (e := .wait t) act rfl rfl rfl (by simp [lastTrig, trigLine, State.perform])
      (by simp [lastCs, csLine, State.perform])
  | checkRun =>
    obtain ⟨rfl, rfl⟩ := Monitor.act_checkRun act
    obtain ⟨todo, _, tested⟩ := State.perform_checkRun fl s
    rw [tested]
    exact h.congr rfl h.fclk rfl rfl rfl

/-- What is still to do at a position; nothing when idle. -/
def State.todo (s : State) : List Act := (s.seq.map Flight.todo).getD []

/-- Between any two ticks: the rules hold, and what is still to do keeps the bus protocol to the end. -/
def State.OnCourse (s : State) : Prop := ∃ m, s.Tracks m ∧ m.Settles s.cfg.tSettle s.todo

/-- An action of a command on course leaves it on course. -/
theorem State.Tracks.perform_onCourse {m : Monitor} {s : State} {a : Act} {fl : Flight} (h : s.Tracks m)
    (settles : m.Settles s.cfg.tSettle (a :: fl.todo)) : (s.perform a fl).OnCourse := by
  obtain ⟨m', act, rest⟩ := settles
  refine ⟨m', h.perform act fl, ?_⟩
  cases a with
  | cs l => exact rest
  | xchg tx => exact rest
  | trig l => exact rest
  | wait t => exact rest
  | checkRun =>
    obtain ⟨rfl, rfl⟩ := Monitor.act_checkRun act
    obtain ⟨todo, rfl | rfl, tested⟩ := State.perform_checkRun fl s
    · rw [tested]
      exact rest
    · rw [tested]
      exact (settles_setRunActs h.cfg).append rest

/-- A clock operand that does not fault is a clock in the range of R29 (R128, R196). -/
theorem clock_pos {hz : Freq64} (h : clockBad hz = false) : 1 ≤ (BitVec.ofNat 32 (clockOf hz)).toNat := by
  have legal : ¬ (hz.toNat = 0 ∨ 2 ^ 32 - 1 < hz.toNat) := fun bad => by
    simp [(clockBad_iff hz).mpr bad] at h
  rw [BitVec.toNat_ofNat, clockOf, Nat.mod_eq_of_lt (by omega)]
  omega

/-- A command's end keeps `FCLK` ≥ 1 (R29). -/
theorem finish_fclk_pos {s : State} (fl : Flight) (h : 1 ≤ s.fclk.toNat) : 1 ≤ (finish fl s).fclk.toNat := by
  cases hv : verdict fl.instr s with
  | some st =>
    rw [finish_of_verdict_some hv]
    cases st <;> exact h
  | none =>
    cases hi : fl.instr with
    | none => simp [hi, verdict] at hv
    | some i =>
      rw [hi] at hv
      rw [finish_of_verdict_none hi hv]
      cases i with
      | setFclk hz => exact clock_pos (by simpa [verdict] using hv)
      | _ => exact h

/-- Every tick of a command on course leaves it on course. -/
theorem tick_onCourse (s : State) (h : s.OnCourse) : (tick s).OnCourse := by
  cases hseq : s.seq with
  | none => rwa [tick_idle hseq]
  | some fl =>
    obtain ⟨m, tracks, settles⟩ := h
    have todo : s.todo = fl.todo := by simp [State.todo, hseq]
    rw [todo] at settles
    rcases tick_cases hseq with ⟨done, ended⟩ | ⟨a, rest, htodo, acted⟩
    · obtain ⟨_, _, hist, trig, csN, cfg, _⟩ := finish_spec fl s
      rw [done] at settles
      rw [ended]
      exact ⟨m, tracks.congr cfg (finish_fclk_pos fl tracks.fclk) trig csN hist, settles⟩
    · rw [acted]
      exact tracks.perform_onCourse (htodo ▸ settles)

/-! ## The chip select and the monitor -/

/-- Where the monitor allows it, driving the chip select low begins a transaction and driving it high ends one (R81). -/
theorem Monitor.next_cs {tSettle : Nat} {m m' : Monitor} {l : Level} (h : m.next tSettle (.cs l) = some m') :
    l = false ↔ m'.phase ≠ .idle := by
  obtain ⟨phase, owed⟩ := m
  cases phase with
  | idle =>
    cases l with
    | false =>
      obtain ⟨_, ⟨⟩⟩ := Option.ite_none_right_eq_some.mp h
      simp
    | true =>
      cases h
      simp
  | selected => cases h
  | addressed => cases h
  | exchanged =>
    cases l with
    | false => cases h
    | true =>
      cases h
      simp

/-- Every other event stays on its side of the chip select. -/
theorem Monitor.next_other {tSettle : Nat} {m m' : Monitor} {e : Event} (other : ∀ l, e ≠ .cs l)
    (h : m.next tSettle e = some m') : m.phase ≠ .idle ↔ m'.phase ≠ .idle := by
  obtain ⟨phase, owed⟩ := m
  cases e with
  | cs l => exact absurd rfl (other l)
  | xchg tx rx =>
    cases phase with
    | idle => cases h
    | selected =>
      obtain ⟨_, ⟨⟩⟩ := Option.ite_none_right_eq_some.mp h
      simp
    | addressed =>
      obtain ⟨_, ⟨⟩⟩ := Option.ite_none_left_eq_some.mp h
      simp
    | exchanged => cases h
  | trig l => cases phase <;> cases h; rfl
  | wait t => cases phase <;> cases h; rfl

/-- A history that the monitor accepts last drove the chip select low exactly where the monitor is inside a transaction. -/
theorem lastCs_low_iff {tSettle : Nat} {h : List Event} {m : Monitor}
    (run : Monitor.run tSettle (some Monitor.start) h = some m) : lastCs h = some false ↔ m.phase ≠ .idle := by
  induction h using List.reverseRecOn generalizing m with
  | nil =>
    cases run
    simp [lastCs, Monitor.start]
  | append_singleton h e ih =>
    rw [Monitor.run_append] at run
    cases before : Monitor.run tSettle (some Monitor.start) h with
    | none => simp [before] at run
    | some m₀ =>
      have next : m₀.next tSettle e = some m := by simpa [before, Monitor.run] using run
      have ih := ih before
      cases e with
      | cs l => simpa [lastCs] using Monitor.next_cs next
      | _ =>
        rw [Monitor.next_other (by simp) next] at ih
        simpa [lastCs] using ih

/-- Under the rules, the chip is selected exactly inside a transaction (R28, R50). -/
theorem State.Tracks.selected_iff {m : Monitor} {s : State} (h : s.Tracks m) : s.csN = false ↔ m.phase ≠ .idle := by
  rw [← lastCs_low_iff h.bus, h.csLine, Option.some_inj]

/-! ## Good states -/

/-- A good state is one that keeps the rules at a command boundary. -/
theorem good_iff (s : State) : Good s ↔ s.Tracks Monitor.start ∧ s.busy = false ∧ s.seq = none := by
  constructor
  · intro h
    exact ⟨⟨h.cfg, h.fclk, h.trigLine, h.csLine, of_decide_eq_true h.bus⟩, h.idle⟩
  · rintro ⟨h, idle⟩
    have notSelected : ¬ s.csN = false := by simp [h.selected_iff, Monitor.start]
    exact ⟨h.cfg, idle, by simpa using notSelected, h.fclk, h.trigLine, h.csLine, decide_eq_true h.bus⟩

/-- A command accepted in a good state is on course. -/
theorem launch_onCourse (i : Option Instr) {s : State} (h : Good s) : (s.launch i).OnCourse := by
  obtain ⟨tracks, _⟩ := (good_iff s).mp h
  exact ⟨_, tracks.congr rfl tracks.fclk rfl rfl rfl, settles_plan i h.cfg⟩

/-- Settles O59: a command is on course after any number of ticks. -/
theorem selectedOnlyInsideATransaction : Obligations.SelectedOnlyInsideATransaction := by
  intro i s k h
  obtain ⟨m, tracks, _⟩ := ticks_keeps tick_onCourse k (launch_onCourse i h)
  have cfg : (ticks k (s.launch i)).cfg = s.cfg := (ticks_cfg_requests k (s.launch i)).1
  exact ⟨m, cfg ▸ tracks.bus, tracks.selected_iff⟩

/-- A command, or an illegal word, leaves a good state good. -/
theorem good_launch_drain (i : Option Instr) {s : State} (h : Good s) : Good (s.launch i).drain := by
  obtain ⟨m, tracks, settles⟩ := drain_keeps tick_onCourse (launch_onCourse i h)
  have idle := drain_seq (s.launch i)
  obtain ⟨busyLow, _⟩ := drain_answers (s := s.launch i) (by simp [State.launch])
  have settled : m = Monitor.start := by simpa [State.todo, idle, Monitor.Settles] using settles
  exact (good_iff _).mpr ⟨settled ▸ tracks, busyLow, idle⟩

/-- The reset clock of a well-formed configuration is in the range of R29 (R8). -/
theorem Config_wf_fclkReset {c : Config} (h : c.wf = true) : 1 ≤ c.fclkReset ∧ c.fclkReset ≤ fclkMax := by
  unfold Config.wf at h
  rw [decide_eq_true_iff] at h
  obtain ⟨_, _, _, _, _, _, _, _, _, _, _, _, _, range⟩ := h
  exact range

/-- A reset makes a state good under a well-formed configuration, whatever it was (R220, R221). -/
theorem good_applyReset {s : State} (h : s.cfg.wf = true) : Good s.applyReset where
  cfg := h
  idle := ⟨rfl, rfl⟩
  deselected := rfl
  fclk := by
    obtain ⟨low, high⟩ := Config_wf_fclkReset h
    rw [State.applyReset_fclk, BitVec.toNat_ofNat, Nat.mod_eq_of_lt (by unfold fclkMax at high; omega)]
    exact low
  trigLine := rfl
  csLine := rfl
  bus := rfl

/-- Taking an offer leaves a good state good. -/
theorem good_withRequests (rs : List Request) {s : State} (h : Good s) : Good (s.withRequests rs) :=
  ⟨h.cfg, h.idle, h.deselected, h.fclk, h.trigLine, h.csLine, h.bus⟩

/-- A code word that runs in a good state leaves it good. -/
theorem good_runWord {w : CodeWord} {s t : State} (h : Good s) (run : runWord w s = .next t) : Good t := by
  obtain ⟨_, idle⟩ := h.idle
  unfold runWord at run
  split at run
  · rw [exec_eq_launch_drain _ idle] at run
    injection run with ended
    exact ended ▸ good_launch_drain _ h
  · have illegal : (s.launch none).drain = execIllegal s :=
      launch_drain_of_verdict_some (st := .fault .illegalCmd) idle rfl
    injection run with ended
    exact ended ▸ illegal ▸ good_launch_drain none h
  · cases run

/-- Settles O51: a step serves nothing, a word, a reset, or a word that a reset cuts, and each leaves a good state. -/
theorem everyStepKeepsGood : Obligations.EveryStepKeepsGood := by
  intro s t h hstep
  rw [step_of_wf h.cfg] at hstep
  obtain ⟨notBusy, _⟩ := h.idle
  unfold serve at hstep
  split at hstep
  case h_1 rest _ =>
    injection hstep with ended
    exact ended ▸ good_applyReset h.cfg
  case h_2 busy _ => simp [notBusy] at busy
  case h_3 =>
    injection hstep with ended
    exact ended ▸ h
  case h_4 w rest _ _ => exact good_runWord (good_withRequests rest h) hstep
  case h_5 c k rest _ _ =>
    injection hstep with ended
    have cfg := (ticks_cfg_requests k ((s.withRequests rest).launch (decode (.cmd c)).toOption)).1
    exact ended ▸ good_applyReset (cfg ▸ h.cfg)

end Sys2Proof.Machine
end

section
/-! `FAULT` is written by the faults and read by nothing (10_state.md R31, R34; 60_exceptions.md R201). -/

namespace Sys2Proof.Machine

open Sys2Proof

/-- `s` with another value in `FAULT`. -/
def State.withFault (f : BitVec 5) (s : State) : State := { s with fault := f }

@[simp] theorem State.withFault_fclk (f : BitVec 5) (s : State) : (s.withFault f).fclk = s.fclk := rfl
@[simp] theorem State.withFault_cfg (f : BitVec 5) (s : State) : (s.withFault f).cfg = s.cfg := rfl

/-- Writing the value that stands there. -/
theorem State.withFault_self (s : State) : s.withFault s.fault = s := rfl

/-- A stop adds its own bits to `FAULT`, and else carries it through (R191, R197). -/
theorem Stop.take_withFault (st : Stop) (f : BitVec 5) (s : State) :
    st.take (s.withFault f) = (st.take s).withFault (f ||| st.mask) := by
  cases st with
  | fault k => rfl
  | invalidParameter => simp [Stop.mask, Stop.take, State.withFault, State.invalidParameter_spec]

/-- Acceptance carries `FAULT` through (R24). -/
theorem accept_withFault (f : BitVec 5) (s : State) : (s.withFault f).accept = s.accept.withFault f := rfl

/-- `MemWrite` carries `FAULT` through, and its echo does not depend on it (R82). -/
theorem memWrite_withFault (a d : Word16) (f : BitVec 5) (s : State) :
    (s.withFault f).memWrite a d = ((s.memWrite a d).1, (s.memWrite a d).2.withFault f) := rfl

/-- `MemRead` carries `FAULT` through, and its word does not depend on it (R83). -/
theorem memRead_withFault (a : Word16) (f : BitVec 5) (s : State) :
    (s.withFault f).memRead a = ((s.memRead a).1, (s.memRead a).2.withFault f) := rfl

/-- `StartSeq` carries `FAULT` through (R152). -/
theorem startSeq_withFault (f : BitVec 5) (s : State) : (s.withFault f).startSeq = s.startSeq.withFault f := by
  rw [State.startSeq_spec, State.startSeq_spec]
  rfl

/-- What `PAT_UPDATE` does before its response carries `FAULT` through (R155). -/
theorem updateSeq_withFault (f : BitVec 5) (s : State) :
    ((s.withFault f).commitSeq.updateRun.waitMs s.cfg.tUpd2).startSeq =
      (s.commitSeq.updateRun.waitMs s.cfg.tUpd2).startSeq.withFault f :=
  (State.updateSeq_spec (s.withFault f)).trans (congrArg (State.withFault f) (State.updateSeq_spec s).symm)

/-- `PAT_SHUTDOWN` carries `FAULT` through in either mode (R156). -/
theorem shutdown_withFault {s t : State} (f : BitVec 5) (h : exec .patShutdown s = .next t) :
    exec .patShutdown (s.withFault f) = .next (t.withFault f) := by
  cases h
  have mode : (s.withFault f).cfg.shutdownMode = s.cfg.shutdownMode := rfl
  unfold exec execPatShutdown
  rw [mode]
  cases s.cfg.shutdownMode <;> rfl

/-- A command that is OK carries `FAULT` through. -/
theorem exec_withFault_of_verdict_none {i : Instr} {s t : State} (f : BitVec 5) (h : verdict (some i) s = none)
    (run : exec i s = .next t) : exec i (s.withFault f) = .next (t.withFault f) := by
  cases i
  case regWrite | regRead | frameWrite | frameRead =>
    have legal := mt (ite_eq_right_iff.mp h) (Option.some_ne_none _)
    cases run
    simp only [exec, execRegWrite, execRegRead, execFrameWrite, execFrameRead, State.checkedWrite, State.checkedRead,
      legal]
    rfl
  case chResolve | chWrite | chRead =>
    have ok := channelVerdict_eq_none.mp h
    cases run
    simp only [exec, execChResolve, execChWrite, execChRead, State.withResolved_ok ok]
    rfl
  case freqEncode freq | setFreq freq =>
    have inRange : freqInRange freq s.fclk = true := by simpa [verdict] using h
    cases run
    simp only [exec, execFreqEncode, execSetFreq, State.withFault_fclk, State.withFault_cfg, inRange, if_true,
      accept_withFault, memWrite_withFault]
    rfl
  case setFclk hz =>
    have legal : clockBad hz = false := by simpa [verdict] using h
    cases run
    simp only [exec, execSetFclk, legal]
    rfl
  case patStart =>
    cases run
    exact congrArg (fun u => Host.Outcome.next (u.respond {})) (startSeq_withFault f s.accept)
  case patUpdate =>
    cases run
    exact congrArg (fun u => Host.Outcome.next (u.respond {})) (updateSeq_withFault f s.accept)
  case patShutdown => exact shutdown_withFault f run
  case getFreq =>
    cases run
    simp only [exec, execGetFreq, State.withFault_fclk, State.withFault_cfg, accept_withFault, memRead_withFault]
    rfl
  case freqDecode | patStop | errSet =>
    cases run
    rfl

/-- The bits an instruction adds to `FAULT`: those of the stop it meets, if any (R191, R199). -/
def faultBits (i : Instr) (s : State) : BitVec 5 := ((verdict (some i) s).map Stop.mask).getD 0

/-- Every instruction adds its bits to `FAULT` and does all else as it would from any other value there. -/
theorem exec_withFault {i : Instr} {s t : State} (f : BitVec 5) (run : exec i s = .next t) :
    exec i (s.withFault f) = .next (t.withFault (f ||| faultBits i s)) := by
  cases h : verdict (some i) s with
  | none =>
    have noBits : f ||| faultBits i s = f := by simp [faultBits, h]
    rw [noBits]
    exact exec_withFault_of_verdict_none f h run
  | some st =>
    have bits : faultBits i s = st.mask := by simp [faultBits, h]
    have stops : verdict (some i) (s.withFault f) = some st := (verdict_congr (some i) rfl).trans h
    rw [exec_of_verdict_some h] at run
    injection run with ended
    rw [exec_of_verdict_some stops, bits, ← ended]
    exact congrArg _ (Stop.take_withFault st f s.accept)

/-- Settles O35: the bits are those of the stop, if any; from the value that stands in `FAULT` they are what the command adds. -/
theorem faultBitsAccumulateUnread : Obligations.FaultBitsAccumulateUnread := by
  intro i s f
  obtain ⟨t, run⟩ := exec_isNext i s
  have same := exec_withFault s.fault run
  rw [State.withFault_self, run] at same
  injection same with added
  exact ⟨t, faultBits i s, run, congrArg State.fault added, exec_withFault f run⟩

end Sys2Proof.Machine
end

section
/-! The chip's answers (20_memory.md R45): an exchange receives the next one, and no other action of a command takes any. -/

namespace Sys2Proof.Machine

open Sys2Proof

/-- The words received go over appended histories. -/
theorem receivedWords_append (h k : List Event) : receivedWords (h ++ k) = receivedWords h ++ receivedWords k :=
  List.filterMap_append

/-- From `s` on, the events `evs` led to `t`, and received the chip's next `n` answers in order; no other answer is used up. -/
structure Receives (s t : State) (evs : List Event) (n : Nat) : Prop where
  hist_eq : t.hist = s.hist ++ evs
  received_eq : receivedWords evs = (List.range n).map s.rx
  chipIn_eq : t.chipIn = s.chipIn.drop n
  draws_eq : t.draws = s.draws + n

/-- With the history, the lined-up answers and their count unchanged nothing was received. -/
theorem Receives.nil {s t : State} (hist : t.hist = s.hist) (chipIn : t.chipIn = s.chipIn) (draws : t.draws = s.draws) :
    Receives s t [] 0 :=
  ⟨by simp [hist], rfl, by simp [chipIn], draws⟩

/-- Events that are no exchange, and take no answer. -/
theorem Receives.quiet {s t u : State} {evs es : List Event} {n : Nat} (h : Receives s t evs n)
    (noWord : receivedWords es = []) (hist : u.hist = t.hist ++ es) (chipIn : u.chipIn = t.chipIn)
    (draws : u.draws = t.draws) : Receives s u (evs ++ es) n where
  hist_eq := by rw [hist, h.hist_eq, List.append_assoc]
  received_eq := by rw [receivedWords_append, noWord, List.append_nil, h.received_eq]
  chipIn_eq := chipIn.trans h.chipIn_eq
  draws_eq := draws.trans h.draws_eq

/-- Nothing but the history, the lined-up answers and their count matters. -/
theorem Receives.congr {s t u : State} {evs : List Event} {n : Nat} (h : Receives s t evs n) (hist : u.hist = t.hist)
    (chipIn : u.chipIn = t.chipIn) (draws : u.draws = t.draws) : Receives s u evs n :=
  ⟨hist.trans h.hist_eq, h.received_eq, chipIn.trans h.chipIn_eq, draws.trans h.draws_eq⟩

/-- One more exchange receives the answer after those taken (R22, R45). -/
theorem Receives.exchange {s t : State} {evs : List Event} {n : Nat} (h : Receives s t evs n) (tx : Word16) :
    Receives s (t.exchange tx).2 (evs ++ [.xchg tx (t.rx 0)]) (n + 1) where
  hist_eq := by rw [State.exchange_spec, h.hist_eq, List.append_assoc]
  received_eq := by
    have next : t.rx 0 = s.rx n := State.rx_of_taken h.chipIn_eq h.draws_eq 0
    calc receivedWords (evs ++ [.xchg tx (t.rx 0)])
        = receivedWords evs ++ [t.rx 0] := receivedWords_append _ _
      _ = (List.range (n + 1)).map s.rx := by rw [h.received_eq, next, List.range_succ, List.map_append]; rfl
  chipIn_eq := by rw [State.exchange_spec, h.chipIn_eq, List.drop_drop]
  draws_eq := by rw [State.exchange_spec, h.draws_eq, Nat.add_assoc]

/-- One action receives at most the next answer: an exchange takes it, every other action takes none. -/
theorem Receives.perform {s t : State} {evs : List Event} {n : Nat} (h : Receives s t evs n) (a : Act) (fl : Flight) :
    ∃ evs n, Receives s (t.perform a fl) evs n := by
  cases a with
  | cs l => exact ⟨_, _, h.quiet (es := [.cs l]) rfl rfl rfl rfl⟩
  | xchg tx => exact ⟨_, _, (h.exchange tx).congr rfl rfl rfl⟩
  | trig l => exact ⟨_, _, h.quiet (es := [.trig l]) rfl rfl rfl rfl⟩
  | wait ms => exact ⟨_, _, h.quiet (es := [.wait ms]) rfl rfl rfl rfl⟩
  | checkRun =>
    obtain ⟨_, _, tested⟩ := State.perform_checkRun fl t
    exact ⟨_, _, by rw [tested]; exact h.congr rfl rfl rfl⟩

/-- A command's end receives nothing. -/
theorem Receives.finish {s t : State} {evs : List Event} {n : Nat} (h : Receives s t evs n) (fl : Flight) :
    Receives s (finish fl t) evs n := by
  obtain ⟨_, _, hist, _, _, _, _, chipIn, draws⟩ := finish_spec fl t
  exact h.congr hist chipIn draws

/-- Every tick receives the chip's answers in order. -/
theorem tick_keeps_receives {s : State} (t : State) (h : ∃ evs n, Receives s t evs n) :
    ∃ evs n, Receives s (tick t) evs n := by
  obtain ⟨evs, n, taken⟩ := h
  cases hseq : t.seq with
  | none => exact ⟨evs, n, by rwa [tick_idle hseq]⟩
  | some fl =>
    rcases tick_cases hseq with ⟨_, ends⟩ | ⟨a, rest, _, acts⟩
    · exact ⟨evs, n, by rw [ends]; exact (taken.finish fl).congr rfl rfl rfl⟩
    · rw [acts]
      exact taken.perform a _

/-- A sequence of actions receives the chip's answers in order: its ticks do, and the end after them receives nothing. -/
theorem Performs.receives {acts : List Act} {s t : State} {rcvd : List Word16} (h : Performs acts s t rcvd) :
    ∃ evs n, Receives s t evs n := by
  obtain ⟨evs, n, taken⟩ : ∃ evs n, Receives s (s.within none (acts ++ []) []).drain evs n :=
    drain_keeps tick_keeps_receives ⟨[], 0, .nil rfl rfl rfl⟩
  rw [h.drain_eq, drain_within_nil] at taken
  obtain ⟨_, _, hist, _, _, _, _, chipIn, draws⟩ :=
    finish_spec { instr := none, todo := [], rxs := rcvd ++ [] } (t.within none [] (rcvd ++ []))
  exact ⟨evs, n, taken.congr hist.symm chipIn.symm draws.symm⟩

/-- Acceptance receives nothing (R24). -/
theorem Receives.of_accept {s t : State} {evs : List Event} {n : Nat} (h : Receives s.accept t evs n) :
    Receives s t evs n :=
  ⟨h.hist_eq, h.received_eq, h.chipIn_eq, h.draws_eq⟩

/-- A stop receives nothing (R191, R197). -/
theorem Stop.take_receives (st : Stop) (s : State) : Receives s (st.take s) [] 0 := by
  cases st <;> exact .nil rfl rfl rfl

/-- Every instruction receives the chip's answers in order: none when it is stopped, else those of its actions. -/
theorem exec_receives {i : Instr} {s t : State} (run : exec i s = .next t) : ∃ evs n, Receives s t evs n := by
  cases h : verdict (some i) s with
  | some st =>
    rw [exec_of_verdict_some h] at run
    injection run with ended
    exact ⟨[], 0, ended ▸ (st.take_receives s.accept).of_accept⟩
  | none =>
    obtain ⟨u, rcvd, acts, completes⟩ := exec_of_verdict_none h
    obtain ⟨evs, n, taken⟩ := acts.receives
    rw [completes] at run
    injection run with ended
    have ok : verdict (some i) u = none := (verdict_congr (some i) acts.fclk_eq).trans h
    have finishes := taken.finish { instr := some i, todo := [], rxs := rcvd }
    rw [finish_of_verdict_none rfl ok, ended] at finishes
    exact ⟨evs, n, finishes.of_accept⟩

/-- Settles O17: the count of the words received is that of the answers taken. -/
theorem exchangesTakeTheChipsAnswersInOrder : Obligations.ExchangesTakeTheChipsAnswersInOrder := by
  intro i s t run
  obtain ⟨evs, n, taken⟩ := exec_receives run
  have added : eventsAfter s t = evs := by rw [eventsAfter, taken.hist_eq, List.drop_left]
  have count : (receivedWords evs).length = n := by simp [taken.received_eq]
  rw [added, count]
  exact ⟨taken.received_eq, taken.chipIn_eq, taken.draws_eq⟩

end Sys2Proof.Machine
end

section
/-! Decoding and encoding (30_encoding.md R61-R70): the encoder's words decode to what they encode, the illegal command words are
the reserved ones, and a field that a command does not read does not matter; the frames of the framer's port and of its register
accesses (R66-R69). -/

namespace Sys2Proof

/-! ## Decoding a command word by its fields -/

/-- A command word is legal exactly when its reserved bits are 0 and the opcode map knows its op (R64, R70). -/
theorem decodeCommand_eq_instr_iff {c : CmdWord} {i : Instr} :
    decodeCommand c = .instr i ↔ (fieldRsv0 c = 0 ∧ fieldRsv1 c = 0) ∧ opcodeMap c = some i := by
  unfold decodeCommand
  split
  · rename_i reserved
    simp only [reduceCtorEq, false_iff]
    rintro ⟨⟨rsv0, rsv1⟩, _⟩
    exact reserved.elim (absurd rsv0) (absurd rsv1)
  · rename_i clear
    have zero : fieldRsv0 c = 0 ∧ fieldRsv1 c = 0 := by simpa only [not_or, not_not] using clear
    cases opcodeMap c <;> simp [zero]

/-- The only op without a row is 0 (R62, R64). -/
theorem opcodeMap_eq_none_iff (c : CmdWord) : opcodeMap c = none ↔ fieldOp c = 0 := by
  constructor
  · intro unknown
    have bound := (fieldOp c).isLt
    unfold opcodeMap at unknown
    split at unknown
    case h_16 =>
      have zero : (fieldOp c).toNat = 0 := by simp only [imp_false] at *; omega
      exact BitVec.eq_of_toNat_eq zero
    all_goals cases unknown
  · intro zero
    simp [opcodeMap, zero]

/-- What the opcode map answers is a command, and no frame (R62). -/
theorem encode_of_opcodeMap {c : CmdWord} {i : Instr} (h : opcodeMap c = some i) : ∃ c', encode i = .cmd c' := by
  unfold opcodeMap at h
  split at h <;> cases h <;> exact ⟨_, rfl⟩

/-- Two words that agree under a mask agree on every field the mask covers. -/
theorem extract_eq_of_masked {c c' m : CmdWord} (agree : c' &&& m = c &&& m) (s l : Nat)
    (covered : m.extractLsb' s l = BitVec.allOnes l) : c'.extractLsb' s l = c.extractLsb' s l := by
  have fields := congrArg (BitVec.extractLsb' s l) agree
  rwa [BitVec.extractLsb'_and, BitVec.extractLsb'_and, covered, BitVec.and_allOnes, BitVec.and_allOnes] at fields

/-- Every mask covers the op and the reserved bits (R61, R64). -/
theorem readMask_covers_opcode (i : Instr) :
    (readMask i).extractLsb' 0 4 = BitVec.allOnes 4 ∧ (readMask i).extractLsb' 7 1 = BitVec.allOnes 1 ∧
      (readMask i).extractLsb' 11 5 = BitVec.allOnes 5 := by
  cases i <;> simp only [readMask] <;> exact ⟨rfl, rfl, rfl⟩

/-- Words that agree under an instruction's mask have the same op and the same reserved bits. -/
theorem opcode_fields_eq_of_masked {c c' : CmdWord} {i : Instr} (agree : c' &&& readMask i = c &&& readMask i) :
    fieldOp c' = fieldOp c ∧ fieldRsv0 c' = fieldRsv0 c ∧ fieldRsv1 c' = fieldRsv1 c := by
  obtain ⟨op, rsv0, rsv1⟩ := readMask_covers_opcode i
  have field := extract_eq_of_masked agree
  exact ⟨field 0 4 op, field 7 1 rsv0, field 11 5 rsv1⟩

/-- The opcode map reads only the fields of R63, which the instruction's mask covers. -/
theorem opcodeMap_congr {c c' : CmdWord} {i : Instr} (h : opcodeMap c = some i)
    (agree : c' &&& readMask i = c &&& readMask i) : opcodeMap c' = some i := by
  obtain ⟨op, _⟩ := opcode_fields_eq_of_masked agree
  unfold opcodeMap at h ⊢
  rw [op]
  -- the cases are the rows of R62, in the order of their ops; each reads the fields of R63
  split at h <;> cases h <;> simp only [readMask] at agree <;> have field := extract_eq_of_masked agree
  case h_1 => rw [fieldAddr, fieldData, field 16 16 rfl, field 32 16 rfl]; rfl
  case h_2 => rw [fieldAddr, field 16 16 rfl]; rfl
  case h_3 | h_5 => rw [fieldAddr, fieldCh, field 16 16 rfl, field 4 3 rfl]; rfl
  case h_4 => rw [fieldAddr, fieldCh, fieldData, field 16 16 rfl, field 4 3 rfl, field 32 16 rfl]; rfl
  case h_6 | h_8 | h_10 => rw [fieldArg, field 64 64 rfl]; rfl
  case h_7 => rw [fieldData, fieldData2, field 32 16 rfl, field 48 16 rfl]; rfl
  case h_15 => rw [fieldCode, field 8 3 rfl]; rfl
  case h_9 | h_11 | h_12 | h_13 | h_14 => rfl

/-- A word is illegal by its op or by its reserved bits (R64, R70). -/
theorem decodeCommand_rejected_iff (c : CmdWord) :
    (∃ r, decodeCommand c = .rejected r) ↔ fieldOp c = 0 ∨ fieldRsv0 c ≠ 0 ∨ fieldRsv1 c ≠ 0 := by
  unfold decodeCommand
  split
  · rename_i reserved
    exact ⟨fun _ => .inr reserved, fun _ => ⟨_, rfl⟩⟩
  · rename_i clear
    rw [← opcodeMap_eq_none_iff]
    cases opcodeMap c with
    | none => simp
    | some i => simpa using clear

/-- Settles O20: the words that do not decode are the reserved ones, and the opcode map answers commands only. -/
theorem illegalWordsAreExactlyTheReserved : Obligations.IllegalWordsAreExactlyTheReserved := by
  intro c
  refine ⟨decodeCommand_rejected_iff c, fun legal => ?_⟩
  cases hdec : decodeCommand c with
  | rejected r => exact absurd hdec (legal r)
  | instr i => exact ⟨i, rfl, encode_of_opcodeMap (decodeCommand_eq_instr_iff.mp hdec).2⟩

/-- Settles O19: under the mask stand the fields the decoder reads, and a step runs what the word decodes to. -/
theorem unreadFieldsAreIgnored : Obligations.UnreadFieldsAreIgnored := by
  intro c c' i hdec agree
  obtain ⟨reserved, row⟩ := decodeCommand_eq_instr_iff.mp hdec
  obtain ⟨_, rsv0, rsv1⟩ := opcode_fields_eq_of_masked agree
  have hdec' : decodeCommand c' = .instr i :=
    decodeCommand_eq_instr_iff.mpr ⟨by rwa [rsv0, rsv1], opcodeMap_congr row agree⟩
  refine ⟨hdec', fun s rest ready => ?_⟩
  have runs : ∀ w, decodeCommand w = .instr i →
      Machine.step { s with requests := .offer (.cmd w) :: rest } = Machine.exec i { s with requests := rest } :=
    fun w hw => Machine.stepRunsTheDecodedInstruction _ (.cmd w) rest i ready rfl hw
  rw [runs c' hdec', runs c hdec]

/-- Settles O21: each worked word of R74. -/
theorem workedEncodingsDecode : Obligations.WorkedEncodingsDecode := by
  refine ⟨?regWrite, ?regRead, ?chWrite, ?setFreq, ?setFreqNegative, ?errSetZero, ?errSetSeven, ?freqDecode⟩
  all_goals decide

/-! ## Frames -/

/-- A frame decodes by its read bit (R66). -/
theorem decodeFrame_append (rw : BitVec 1) (a : Addr15) (d : Word16) :
    decodeFrame (rw ++ a ++ d) =
      if rw.getLsbD 0 then if d = 0 then .instr (.frameRead a) else .rejected .dummyNotZero
      else .instr (.frameWrite a d) := by
  simp only [decodeFrame, frameIsRead_frame, frameW2_frame, frameAddr_frame]

/-- Settles O18: the encoder's fields are what the opcode map reads, and a frame's bits are what its decoder reads. -/
theorem decodeOfEncodeIsTheInstruction : Obligations.DecodeOfEncodeIsTheInstruction := by
  intro i
  cases i
  case frameWrite a d => exact decodeFrame_append 0#1 a d
  case frameRead a => exact decodeFrame_append 1#1 a 0#16
  all_goals exact decodeCommand_mkCmd _ _ _ _ _ _ _ _ (by simp [opcodeMap])

/-- An address word is its read bit and its address field (R66, R67). -/
theorem frameOf_eq_append {w1 : Word16} {read : Bool} {a : Addr15} (bit : w1.getLsbD 15 = read)
    (addr : w1.setWidth 15 = a) (w2 : Word16) : frameOf w1 w2 = BitVec.ofBool read ++ a ++ w2 := by
  subst bit addr
  exact congrArg (· ++ w2) (BitVec.cons_msb_setWidth w1).symm

/-- A read's address word has the read bit set (R67). -/
theorem readWord_bit15 (w : Word16) : (w ||| 0x8000#16).getLsbD 15 = true := by
  simp

/-- The read bit is no part of the address field (R67). -/
theorem readWord_setWidth (w : Word16) : (w ||| 0x8000#16).setWidth 15 = w.setWidth 15 := by
  rw [BitVec.setWidth_or, show (0x8000#16).setWidth 15 = 0#15 from rfl, BitVec.or_zero]

/-- An address field as an address word, and back. -/
theorem setWidth_addr (a : Addr15) : (a.setWidth 16 : Word16).setWidth 15 = a := by
  simp

/-- A word at the framer's port with its read bit set and a dummy that is not 0 is no frame (R66, R68). -/
theorem decodeFrame_badDummy {f : FrameWord} (read : f.extractLsb' 31 1 = 1#1) (dummy : f.extractLsb' 0 16 ≠ 0#16) :
    decodeFrame f = .rejected .dummyNotZero := by
  have isRead : frameIsRead f = true := by simpa [frameIsRead] using congrArg (·.getLsbD 0) read
  have notZero : frameW2 f ≠ 0 := dummy
  simp only [decodeFrame, isRead, notZero, if_true, if_false]

/-- The address field of a word in numbers (R67). -/
theorem setWidth_toNat_eq_masked (w : Word16) : (w.setWidth 15 : Addr15).toNat = (w &&& 0x7FFF#16).toNat := by
  rw [BitVec.toNat_setWidth, BitVec.toNat_and]
  exact (Nat.and_two_pow_sub_one_eq_mod w.toNat 15).symm

/-- Two words are a legal frame when the first has a register's address and, for a read, the second is the zero dummy (R69). -/
theorem decodeFrame_legal {w1 w2 : Word16} (addr : (w1 &&& 0x7FFF#16).toNat ≤ addrMax)
    (dummy : w1.getLsbD 15 = true → w2 = 0) :
    ∃ j, decodeFrame (frameOf w1 w2) = .instr j ∧ j.wellFormed = true := by
  have field : frameAddrOk (w1.setWidth 15) = true := decide_eq_true (setWidth_toNat_eq_masked w1 ▸ addr)
  rw [frameOf_eq_append rfl rfl, decodeFrame_append]
  cases read : w1.getLsbD 15 with
  | true => exact ⟨.frameRead (w1.setWidth 15), by simp [dummy read], field⟩
  | false => exact ⟨.frameWrite (w1.setWidth 15) w2, by simp, field⟩

end Sys2Proof

namespace Sys2Proof.Machine

open Sys2Proof

/-! ## Frames at the framer's port -/

/-- A write frame, run by itself, is the checked write of R84 (R82; log 6). -/
theorem exec_frameWrite (a : Addr15) (d : Word16) (s : State) :
    exec (.frameWrite a d) s = .next (s.accept.checkedWrite (addr16 a) d) := rfl

/-- A read frame, run by itself, is the checked read of R85 (R83; log 6). -/
theorem exec_frameRead (a : Addr15) (s : State) : exec (.frameRead a) s = .next (s.accept.checkedRead (addr16 a)) := rfl

/-- Settles O16: the two frames are the checked accesses of R84 and R85, at the 15-bit address. -/
theorem framesAreTheRegisterAccesses : Obligations.FramesAreTheRegisterAccesses := by
  intro a d s
  have inRange : a.toNat ≤ 0x7F → ¬ 0x7F < (addr16 a).toNat := fun legal => by simpa using legal
  refine ⟨fun legal => ?write, fun legal => ?read, fun high => ?fault⟩
  case write =>
    refine ⟨_, exec_frameWrite a d s, ?_⟩
    rw [State.checkedWrite_spec, if_neg (inRange legal)]
    rfl
  case read =>
    refine ⟨_, exec_frameRead a s, ?_⟩
    rw [State.checkedRead_spec, if_neg (inRange legal)]
    rfl
  case fault =>
    have tooHigh : 0x7F < (addr16 a).toNat := by simpa using high
    rw [exec_frameWrite, exec_frameRead, State.checkedWrite_spec, State.checkedRead_spec, if_pos tooHigh, if_pos tooHigh]
    exact ⟨rfl, rfl⟩

/-- A code word at the framer's port that is no frame stops the machine (log 7). -/
theorem runWord_of_rejected_frame {f : FrameWord} {r : Reject} (h : decodeFrame f = .rejected r) (s : State) :
    runWord (.frame f) s = .fault .illegalFrame := by
  simp only [runWord, decode, h]

/-- Settles O26: the step serves the offer, which is no frame. -/
theorem noFrameStopsByName : Obligations.NoFrameStopsByName := by
  intro s f rest ⟨hwf, hbusy, _⟩ hreq read dummy
  calc step s
      = serve s := step_of_wf hwf
    _ = runWord (.frame f) (s.withRequests rest) := serve_of_offer hbusy hreq
    _ = .fault .illegalFrame := runWord_of_rejected_frame (decodeFrame_badDummy read dummy) _

/-! ## The frames a history sent -/

/-- A transaction sends its two words as one frame (R66, R81). -/
theorem sentFrames_txnEvents (c : Config) (w1 w2 r1 r2 : Word16) :
    sentFrames (txnEvents c w1 w2 r1 r2) = [frameOf w1 w2] := rfl

/-- What a register write adds to the history (R82). -/
theorem eventsAfter_memWrite (a d : Word16) (s : State) :
    eventsAfter s (s.memWrite a d).2 = txnEvents s.cfg a d (s.rx 0) (s.rx 1) := by
  simp [eventsAfter, State.memWrite_spec, writeEvents]

/-- What a register read adds to the history (R83). -/
theorem eventsAfter_memRead (a : Word16) (s : State) :
    eventsAfter s (s.memRead a).2 = txnEvents s.cfg (a ||| 0x8000#16) 0x0000#16 (s.rx 0) (s.rx 1) := by
  simp [eventsAfter, State.memRead_spec, readEvents]

/-- Settles O22: both address words are read bit and address field, in the encoder and on the bus. -/
theorem framesAreAddressWordThenData : Obligations.FramesAreAddressWordThenData := by
  refine ⟨fun a d => ?write, fun a => ?read, fun a d s legal => ⟨?sentWrite, ?sentRead⟩⟩
  case write =>
    rw [frameOf_eq_append (a := a) (w1 := a.setWidth 16) (addr16_bit15 a) (setWidth_addr a)]
    rfl
  case read =>
    rw [frameOf_eq_append (readWord_bit15 _) ((readWord_setWidth _).trans (setWidth_addr a))]
    rfl
  case sentWrite =>
    rw [eventsAfter_memWrite, sentFrames_txnEvents, frameOf_eq_append (bit15_of_legal legal) rfl]
    rfl
  case sentRead =>
    rw [eventsAfter_memRead, sentFrames_txnEvents, frameOf_eq_append (readWord_bit15 a) (readWord_setWidth a)]
    rfl

end Sys2Proof.Machine
end

section
/-! The frames a command sends (30_encoding.md R66, R69): what it adds to the history keeps the bus protocol, and a history that
keeps the bus protocol sends legal frames only. -/

namespace Sys2Proof.Machine

open Sys2Proof

/-! ## A history that keeps the bus protocol sends legal frames -/

/-- One of the two forms of R66, with an address up to `ADDR_MAX` (R69). -/
def LegalFrame (f : FrameWord) : Prop := ∃ j, decodeFrame f = .instr j ∧ j.wellFormed = true

/-- The first exchange that a view holds is the one the monitor saw: none, or an address word with the monitor's read bit. -/
def BusView.FirstAt (v : BusView) : BusPhase → Prop
  | .addressed rd => ∃ w1 r1, v.first = some (w1, r1) ∧ (w1 &&& 0x7FFF#16).toNat ≤ addrMax ∧ w1.getLsbD 15 = rd
  | .idle => v.first = none
  | .selected => v.first = none
  | .exchanged => v.first = none

/-- A view of a history after which the monitor stands at `m`: legal frames so far, and the first exchange as the monitor saw it. -/
structure BusView.Legal (m : Monitor) (v : BusView) : Prop where
  frames : ∀ tr ∈ v.done, LegalFrame tr.frame
  first : v.FirstAt m.phase

/-- An event that the monitor allows keeps the view legal: it completes a frame only after a legal address word, and then with
the dummy that a read needs. -/
theorem BusView.Legal.next {tSettle : Nat} {m m' : Monitor} {v : BusView} {e : Event} (h : v.Legal m)
    (next : m.next tSettle e = some m') : (v.next e).Legal m' := by
  obtain ⟨phase, owed⟩ := m
  obtain ⟨first, done⟩ := v
  obtain ⟨frames, atPhase⟩ := h
  cases phase with
  | idle =>
    cases (atPhase : first = none)
    cases e with
    | cs l =>
      cases l with
      | true => cases next; exact ⟨frames, rfl⟩
      | false =>
        obtain ⟨_, ⟨⟩⟩ := Option.ite_none_right_eq_some.mp next
        exact ⟨frames, rfl⟩
    | xchg tx rx => cases next
    | trig l => cases next; exact ⟨frames, rfl⟩
    | wait t => cases next; exact ⟨frames, rfl⟩
  | selected =>
    cases (atPhase : first = none)
    cases e with
    | xchg tx rx =>
      obtain ⟨addr, ⟨⟩⟩ := Option.ite_none_right_eq_some.mp next
      exact ⟨frames, tx, rx, rfl, addr, rfl⟩
    | _ => cases next
  | addressed rd =>
    obtain ⟨w1, r1, ⟨⟩, addr, rfl⟩ := atPhase
    cases e with
    | xchg tx rx =>
      obtain ⟨dummy, ⟨⟩⟩ := Option.ite_none_left_eq_some.mp next
      have legal : LegalFrame (frameOf w1 tx) := decodeFrame_legal addr fun read => by simpa [read] using dummy
      refine ⟨fun tr sent => ?_, rfl⟩
      rcases List.mem_append.mp sent with before | now
      · exact frames tr before
      · cases List.mem_singleton.mp now
        exact legal
    | _ => cases next
  | exchanged =>
    cases (atPhase : first = none)
    cases e with
    | cs l =>
      obtain ⟨_, ⟨⟩⟩ := Option.ite_none_right_eq_some.mp next
      exact ⟨frames, rfl⟩
    | _ => cases next

/-- The same for the events of a history that the monitor accepts. -/
theorem BusView.Legal.run {tSettle : Nat} {m m' : Monitor} {v : BusView} {evs : List Event} (h : v.Legal m)
    (run : Monitor.run tSettle (some m) evs = some m') : (evs.foldl BusView.next v).Legal m' := by
  induction evs generalizing m v with
  | nil => cases run; exact h
  | cons e evs ih =>
    rw [Monitor.run] at run
    cases next : m.next tSettle e with
    | none => simp [next] at run
    | some m₁ => exact ih (h.next next) (next ▸ run)

/-- A history that the bus monitor accepts sent legal frames only (R66, R69). -/
theorem legalFrame_of_sent {tSettle : Nat} {m : Monitor} {evs : List Event} {f : FrameWord}
    (run : Monitor.run tSettle (some Monitor.start) evs = some m) (sent : f ∈ sentFrames evs) : LegalFrame f := by
  have start : BusView.Legal Monitor.start { first := none, done := [] } := ⟨by simp, rfl⟩
  obtain ⟨tr, done, rfl⟩ := List.mem_map.mp sent
  exact (start.run run).frames tr done

/-! ## What a command adds to the history keeps the bus protocol -/

/-- Since the history was `h`, whatever that is, the events kept the bus protocol, and the monitor stands at `m` after them. -/
structure State.TracksSince (h : List Event) (m : Monitor) (s : State) : Prop where
  cfg : s.cfg.wf = true
  bus : ∃ evs, s.hist = h ++ evs ∧ Monitor.run s.cfg.tSettle (some Monitor.start) evs = some m

/-- Only the history and the configuration matter. -/
theorem State.TracksSince.congr {h : List Event} {m : Monitor} {s t : State} (tracks : s.TracksSince h m)
    (cfg : t.cfg = s.cfg) (hist : t.hist = s.hist) : t.TracksSince h m where
  cfg := cfg ▸ tracks.cfg
  bus := by rw [cfg, hist]; exact tracks.bus

/-- One more event that the monitor allows. -/
theorem State.TracksSince.emits {h : List Event} {m m' : Monitor} {s t : State} {e : Event} (tracks : s.TracksSince h m)
    (next : m.next s.cfg.tSettle e = some m') (cfg : t.cfg = s.cfg) (hist : t.hist = s.hist ++ [e]) :
    t.TracksSince h m' where
  cfg := cfg ▸ tracks.cfg
  bus := by
    obtain ⟨evs, since, run⟩ := tracks.bus
    refine ⟨evs ++ [e], by rw [hist, since, List.append_assoc], ?_⟩
    rw [cfg, Monitor.run_append, run, ← next]
    rfl

/-- Between any two ticks of a command that found the history `h`: the events since keep the bus protocol, and what is still to
do keeps it to the end. -/
def State.OnCourseSince (h : List Event) (s : State) : Prop := ∃ m, s.TracksSince h m ∧ m.Settles s.cfg.tSettle s.todo

/-- An action of a command on course leaves it on course. -/
theorem State.TracksSince.perform_onCourse {h : List Event} {m : Monitor} {s : State} {a : Act} {fl : Flight}
    (tracks : s.TracksSince h m) (settles : m.Settles s.cfg.tSettle (a :: fl.todo)) :
    (s.perform a fl).OnCourseSince h := by
  obtain ⟨m', act, rest⟩ := settles
  cases a with
  | cs l => exact ⟨m', tracks.emits (e := .cs l) act rfl rfl, rest⟩
  | xchg tx => exact ⟨m', tracks.emits ((Monitor.next_xchg _ m tx (s.rx 0)).trans act) rfl rfl, rest⟩
  | trig l => exact ⟨m', tracks.emits (e := .trig l) act rfl rfl, rest⟩
  | wait t => exact ⟨m', tracks.emits (e := .wait t) act rfl rfl, rest⟩
  | checkRun =>
    obtain ⟨rfl, rfl⟩ := Monitor.act_checkRun act
    obtain ⟨todo, rfl | rfl, tested⟩ := State.perform_checkRun fl s
    · rw [tested]
      exact ⟨_, tracks.congr rfl rfl, rest⟩
    · rw [tested]
      exact ⟨_, tracks.congr rfl rfl, (settles_setRunActs tracks.cfg).append rest⟩

/-- Every tick of a command on course leaves it on course. -/
theorem tick_onCourseSince {h : List Event} (s : State) (onCourse : s.OnCourseSince h) : (tick s).OnCourseSince h := by
  cases hseq : s.seq with
  | none => rwa [tick_idle hseq]
  | some fl =>
    obtain ⟨m, tracks, settles⟩ := onCourse
    have todo : s.todo = fl.todo := by simp [State.todo, hseq]
    rw [todo] at settles
    rcases tick_cases hseq with ⟨done, ended⟩ | ⟨a, rest, htodo, acted⟩
    · obtain ⟨_, _, hist, _, _, cfg, _⟩ := finish_spec fl s
      rw [done] at settles
      rw [ended]
      refine ⟨m, tracks.congr cfg hist, ?_⟩
      rwa [State.setSeq_cfg, cfg]
    · rw [acted]
      exact tracks.perform_onCourse (htodo ▸ settles)

/-- A sequence of actions that keeps the bus protocol adds events that keep it: its ticks do, and the end after them adds none. -/
theorem Performs.tracksSince {acts : List Act} {s t : State} {rcvd : List Word16} (h : Performs acts s t rcvd)
    (hwf : s.cfg.wf = true) (settles : Monitor.start.Settles s.cfg.tSettle acts) :
    t.TracksSince s.hist Monitor.start := by
  have start : (s.within none (acts ++ []) []).OnCourseSince s.hist :=
    ⟨Monitor.start, ⟨hwf, [], (List.append_nil _).symm, rfl⟩, by rwa [List.append_nil]⟩
  have ended := drain_keeps tick_onCourseSince start
  rw [h.drain_eq, drain_within_nil] at ended
  obtain ⟨m, tracks, settled⟩ := ended
  obtain ⟨_, _, hist, _, _, cfg, _⟩ :=
    finish_spec { instr := none, todo := [], rxs := rcvd ++ [] } (t.within none [] (rcvd ++ []))
  cases (settled : m = Monitor.start)
  exact tracks.congr cfg.symm hist.symm

/-- Every instruction adds events that keep the bus protocol: none when it is stopped, else those of its actions (R69). -/
theorem exec_tracksSince {i : Instr} {s t : State} (hwf : s.cfg.wf = true) (run : exec i s = .next t) :
    t.TracksSince s.hist Monitor.start := by
  cases h : verdict (some i) s with
  | some st =>
    rw [exec_of_verdict_some h] at run
    cases run
    have unmoved : s.TracksSince s.hist Monitor.start := ⟨hwf, [], (List.append_nil _).symm, rfl⟩
    cases st <;> exact unmoved.congr rfl rfl
  | none =>
    obtain ⟨u, rcvd, acts, completes⟩ := exec_of_verdict_none h
    rw [completes] at run
    cases run
    have ok : verdict (some i) u = none := (verdict_congr (some i) acts.fclk_eq).trans h
    obtain ⟨_, _, hist, _, _, cfg, _⟩ := finish_spec { instr := some i, todo := [], rxs := rcvd } u
    rw [finish_of_verdict_none rfl ok] at hist cfg
    exact (acts.tracksSince hwf (settles_commandActs hwf h)).congr cfg hist

/-- Settles O53: what a command adds to the history keeps the bus protocol, whatever it found there. -/
theorem sentFramesAreLegal : Obligations.SentFramesAreLegal := by
  intro i s t f hwf run sent
  obtain ⟨evs, since, kept⟩ := (exec_tracksSince hwf run).bus
  have added : eventsAfter s t = evs := by rw [eventsAfter, since, List.drop_left]
  exact legalFrame_of_sent kept (added ▸ sent)

end Sys2Proof.Machine
end

section
/-! The wire order of bits (20_memory.md R43; 40_framer.md R86), and the register accesses of the framer (R84, R85) with the
command words that mean them (30_encoding.md R61-R64, R70). -/

namespace Sys2Proof

/-! ## Bits on the wire -/

/-- Bit `k` on the wire is the `k`-th from the top (R86). -/
theorem bitsMsbFirst_getElem? {n : Nat} (w : BitVec n) {k : Nat} (h : k < n) :
    (bitsMsbFirst w)[k]? = some (w.getLsbD (n - 1 - k)) := by
  simp [bitsMsbFirst, h]

/-- One more bit received is shifted in at the bottom (R86). -/
theorem wordOfBits_concat (bits : List Bool) (b : Bool) :
    wordOfBits (bits ++ [b]) = (wordOfBits bits <<< 1) ||| (if b then 1#16 else 0#16) := by
  simp [wordOfBits]

/-- The top `k + 1` bits of a word are its top `k` bits with the next one shifted in. -/
theorem ushiftRight_eq_shift_in (w : Word16) {k : Nat} (h : k < 16) :
    w >>> (16 - (k + 1)) = ((w >>> (16 - k)) <<< 1) ||| (if w.getLsbD (15 - k) then 1#16 else 0#16) := by
  apply BitVec.eq_of_getLsbD_eq
  intro i hi
  have bit : (if w.getLsbD (15 - k) then 1#16 else 0#16).getLsbD i = (decide (i = 0) && w.getLsbD (15 - k)) := by
    cases w.getLsbD (15 - k) <;> simp
  rw [BitVec.getLsbD_or, bit]
  cases i with
  | zero => simp [show 16 - (k + 1) = 15 - k by omega]
  | succ j => simp [show 15 - k + (j + 1) = 16 - k + j by omega, hi]

/-- After `k` bits of a word in wire order the receiver holds the word's top `k` bits (R86). -/
theorem wordOfBits_first_bits (w : Word16) {k : Nat} (h : k ≤ 16) :
    wordOfBits ((List.range k).map fun j => w.getLsbD (15 - j)) = w >>> (16 - k) := by
  induction k with
  | zero => exact (BitVec.ushiftRight_eq_zero le_rfl).symm
  | succ k ih =>
    rw [List.range_succ, List.map_append, List.map_singleton, wordOfBits_concat, ih (by omega),
      ushiftRight_eq_shift_in w h]

/-- The bits of a concatenation are those of its high part, then those of its low part (R43). -/
theorem bitsMsbFirst_append {n m : Nat} (x : BitVec n) (y : BitVec m) :
    bitsMsbFirst (x ++ y) = bitsMsbFirst x ++ bitsMsbFirst y := by
  unfold bitsMsbFirst
  rw [List.range_add, List.map_append, List.map_map]
  congr 1
  · refine List.map_congr_left fun k hk => ?_
    have inHigh : k < n := List.mem_range.mp hk
    rw [BitVec.getLsbD_append, if_neg (by omega), show n + m - 1 - k - m = n - 1 - k by omega]
  · refine List.map_congr_left fun k hk => ?_
    have inLow : k < m := List.mem_range.mp hk
    rw [Function.comp_apply, BitVec.getLsbD_append, if_pos (by omega), show n + m - 1 - (n + k) = m - 1 - k by omega]

/-- Settles O23: a received word is the top 16 bits of the one sent, and a frame is its two words concatenated. -/
theorem bitsGoMostSignificantFirst : Obligations.BitsGoMostSignificantFirst :=
  ⟨fun w _ => bitsMsbFirst_getElem? w, fun w => wordOfBits_first_bits w le_rfl, bitsMsbFirst_append⟩

end Sys2Proof

namespace Sys2Proof.Machine

open Sys2Proof

/-! ## What a command word means -/

/-- An illegal command word takes `ILLEGAL_CMD` and nothing else happens (R64, R192). -/
theorem step_of_rejected_command {s : State} {c : CmdWord} {r : Reject} {rest : List Request} (ready : Ready s)
    (hreq : s.requests = .offer (.cmd c) :: rest) (rejected : decodeCommand c = .rejected r) :
    step s = .next (faulted 0b00001#5 .illegalCmd { s with requests := rest }) := by
  obtain ⟨hwf, hbusy, _⟩ := ready
  rw [step_of_wf hwf, serve_of_offer hbusy hreq]
  simp only [runWord, decode, rejected]
  rfl

/-- A row of the opcode map is what the command words of its op mean (R62, R64). -/
theorem wordMeans_of_row {op : BitVec 4} {f : CmdWord → Instr} (row : ∀ c, fieldOp c = op → opcodeMap c = some (f c)) :
    WordMeans op f := by
  intro c hop
  split
  · rename_i clear
    have decodes : decodeCommand c = .instr (f c) := decodeCommand_eq_instr_iff.mpr ⟨clear, row c hop⟩
    exact ⟨decodes, fun s rest ready hreq => stepRunsTheDecodedInstruction s (.cmd c) rest (f c) ready hreq decodes⟩
  · rename_i reserved
    have rejected : decodeCommand c = .rejected .reservedBits := if_pos (not_and_or.mp reserved)
    exact ⟨rejected, fun s rest ready hreq => step_of_rejected_command ready hreq rejected⟩

/-! ## `REG_WRITE` and `REG_READ` -/

/-- `REG_WRITE` is the checked write (R84). -/
theorem exec_regWrite (addr data : Word16) (s : State) :
    exec (.regWrite addr data) s = .next (s.accept.checkedWrite addr data) := rfl

/-- `REG_READ` is the checked read (R85). -/
theorem exec_regRead (addr : Word16) (s : State) : exec (.regRead addr) s = .next (s.accept.checkedRead addr) := rfl

/-- Settles O1: row 1 of the opcode map, and the checked write on both sides of the last address. -/
theorem regWriteWritesOneRegister : Obligations.RegWriteWritesOneRegister := by
  refine ⟨wordMeans_of_row fun c hop => ?row, fun addr data s => ⟨fun legal => ?legal, fun high => ?high⟩⟩
  case row =>
    rw [opcodeMap, hop]
    rfl
  case legal =>
    refine ⟨_, exec_regWrite addr data s, ?_⟩
    rw [State.checkedWrite_spec, if_neg (not_lt.mpr legal)]
    rfl
  case high =>
    rw [exec_regWrite, State.checkedWrite_spec, if_pos high]
    rfl

/-- Settles O2: row 2 of the opcode map, and the checked read on both sides of the last address. -/
theorem regReadReadsOneRegister : Obligations.RegReadReadsOneRegister := by
  refine ⟨wordMeans_of_row fun c hop => ?row, fun addr s => ⟨fun legal => ?legal, fun high => ?high⟩⟩
  case row =>
    rw [opcodeMap, hop]
    rfl
  case legal =>
    refine ⟨_, exec_regRead addr s, ?_⟩
    rw [State.checkedRead_spec, if_neg (not_lt.mpr legal)]
    rfl
  case high =>
    rw [exec_regRead, State.checkedRead_spec, if_pos high]
    rfl

end Sys2Proof.Machine
end

section
/-! The first word received in a transaction is discarded (40_framer.md R87): two runs whose chips differ in those words only stay
the same but for the history and the chip's answers. -/

namespace Sys2Proof.Machine

open Sys2Proof

/-- `s` with another history and other answers lined up. -/
def State.withBus (hist : List Event) (chipIn : List Word16) (s : State) : State :=
  { s with hist := hist, chipIn := chipIn }

/-- Between two transactions of two runs: the states differ in the words received, and in the answers that will be received first
in a transaction, only. -/
structure SameButFirsts (s t : State) : Prop where
  state_eq : t = s.withBus t.hist t.chipIn
  hist_eq : s.hist.map Event.forgetRx = t.hist.map Event.forgetRx
  seconds_eq : ∀ k : Nat, s.chipIn[2 * k + 1]? = t.chipIn[2 * k + 1]?

section
variable {s t : State}

/-! ## What the two states share -/

theorem SameButFirsts.cfg_eq (h : SameButFirsts s t) : t.cfg = s.cfg :=
  (congrArg State.cfg h.state_eq).trans rfl

theorem SameButFirsts.fclk_eq (h : SameButFirsts s t) : t.fclk = s.fclk :=
  (congrArg State.fclk h.state_eq).trans rfl

theorem SameButFirsts.draws_eq (h : SameButFirsts s t) : t.draws = s.draws :=
  (congrArg State.draws h.state_eq).trans rfl

/-! ## The operations outside a transaction -/

/-- An operation that adds the events `es`, and neither reads nor else writes the history and the answers. -/
theorem SameButFirsts.emits (h : SameButFirsts s t) (f : State → State) (es : List Event)
    (blind : ∀ hist chipIn u, f (State.withBus hist chipIn u) = (f u).withBus (hist ++ es) chipIn) :
    SameButFirsts (f s) (f t) := by
  have left : f s = (f s).withBus (s.hist ++ es) s.chipIn := blind s.hist s.chipIn s
  have right : f t = (f s).withBus (t.hist ++ es) t.chipIn := (congrArg f h.state_eq).trans (blind _ _ s)
  rw [right, left]
  exact ⟨rfl, by simp [State.withBus, h.hist_eq], h.seconds_eq⟩

/-- An operation that neither reads nor writes the history and the answers. -/
theorem SameButFirsts.quiet (h : SameButFirsts s t) (f : State → State)
    (blind : ∀ hist chipIn u, f (State.withBus hist chipIn u) = (f u).withBus hist chipIn) : SameButFirsts (f s) (f t) :=
  h.emits f [] fun hist chipIn u => by rw [blind, List.append_nil]

theorem SameButFirsts.accept (h : SameButFirsts s t) : SameButFirsts s.accept t.accept :=
  h.quiet State.accept fun _ _ _ => rfl

theorem SameButFirsts.respond (h : SameButFirsts s t) (r : Response) : SameButFirsts (s.respond r) (t.respond r) :=
  h.quiet (State.respond r) fun _ _ _ => rfl

theorem SameButFirsts.raiseFault (h : SameButFirsts s t) (k : FaultKind) :
    SameButFirsts (s.raiseFault k) (t.raiseFault k) :=
  h.quiet (State.raiseFault k) fun _ _ _ => rfl

theorem SameButFirsts.invalidParameter (h : SameButFirsts s t) : SameButFirsts s.invalidParameter t.invalidParameter :=
  h.quiet State.invalidParameter fun _ _ _ => rfl

theorem SameButFirsts.recordError (h : SameButFirsts s t) (code : BitVec 3) :
    SameButFirsts (s.recordError code) (t.recordError code) :=
  h.quiet (State.recordError code) fun _ _ _ => rfl

theorem SameButFirsts.writeFclk (h : SameButFirsts s t) (hz : BitVec 32) :
    SameButFirsts (s.writeFclk hz) (t.writeFclk hz) :=
  h.quiet (State.writeFclk hz) fun _ _ _ => rfl

theorem SameButFirsts.waitMs (h : SameButFirsts s t) (ms : Nat) : SameButFirsts (s.waitMs ms) (t.waitMs ms) :=
  h.emits (State.waitMs ms) [.wait ms] fun _ _ _ => rfl

theorem SameButFirsts.setTrig (h : SameButFirsts s t) (l : Level) : SameButFirsts (s.setTrig l) (t.setTrig l) :=
  h.emits (State.setTrig l) [.trig l] fun _ _ _ => rfl

/-! ## Transactions -/

/-- The word received second in the next transaction is the same. -/
theorem SameButFirsts.rx_one (h : SameButFirsts s t) : t.rx 1 = s.rx 1 := by
  rw [State.rx, State.rx, h.draws_eq, ← h.seconds_eq 0]

/-- The answers left after a transaction agree at the second words again. -/
theorem SameButFirsts.seconds_drop (h : SameButFirsts s t) (k : Nat) :
    (s.chipIn.drop 2)[2 * k + 1]? = (t.chipIn.drop 2)[2 * k + 1]? := by
  rw [List.getElem?_drop, List.getElem?_drop, show 2 + (2 * k + 1) = 2 * (k + 1) + 1 by omega]
  exact h.seconds_eq (k + 1)

/-- `Txn` takes two answers and hands on the second only (R81, R87). -/
theorem SameButFirsts.txn (h : SameButFirsts s t) (w1 w2 : Word16) :
    (t.txn w1 w2).1.2 = (s.txn w1 w2).1.2 ∧ SameButFirsts (s.txn w1 w2).2 (t.txn w1 w2).2 := by
  have events : (s.hist ++ txnEvents s.cfg w1 w2 (s.rx 0) (s.rx 1)).map Event.forgetRx =
      (t.hist ++ txnEvents t.cfg w1 w2 (t.rx 0) (t.rx 1)).map Event.forgetRx := by
    rw [List.map_append, List.map_append, h.hist_eq, h.cfg_eq]
    rfl
  rw [State.txn_spec, State.txn_spec]
  refine ⟨h.rx_one, ?state, events, h.seconds_drop⟩
  case state =>
    have untouched := congrArg (fun u : State => { u with csN := true, draws := u.draws + 2 }) h.state_eq
    exact congrArg (State.withBus _ _) untouched

/-- `MemWrite` (R82): the echo is the word received second. -/
theorem SameButFirsts.memWrite (h : SameButFirsts s t) (a d : Word16) :
    (t.memWrite a d).1 = (s.memWrite a d).1 ∧ SameButFirsts (s.memWrite a d).2 (t.memWrite a d).2 :=
  h.txn a d

/-- `MemRead` (R83): the register's word is the word received second. -/
theorem SameButFirsts.memRead (h : SameButFirsts s t) (a : Word16) :
    (t.memRead a).1 = (s.memRead a).1 ∧ SameButFirsts (s.memRead a).2 (t.memRead a).2 :=
  h.txn _ _

/-- A write, and a response made from its echo. -/
theorem SameButFirsts.writeThenRespond (h : SameButFirsts s t) (a d : Word16) (r : Word16 → Response) :
    SameButFirsts ((s.memWrite a d).2.respond (r (s.memWrite a d).1))
      ((t.memWrite a d).2.respond (r (t.memWrite a d).1)) := by
  obtain ⟨echo, written⟩ := h.memWrite a d
  rw [echo]
  exact written.respond _

/-- A read, and a response made from the register's word. -/
theorem SameButFirsts.readThenRespond (h : SameButFirsts s t) (a : Word16) (r : Word16 → Response) :
    SameButFirsts ((s.memRead a).2.respond (r (s.memRead a).1)) ((t.memRead a).2.respond (r (t.memRead a).1)) := by
  obtain ⟨word, read⟩ := h.memRead a
  rw [word]
  exact read.respond _

/-! ## The bodies of the commands -/

/-- The checked write (R84). -/
theorem SameButFirsts.checkedWrite (h : SameButFirsts s t) (addr data : Word16) :
    SameButFirsts (s.checkedWrite addr data) (t.checkedWrite addr data) := by
  unfold State.checkedWrite
  split
  · exact h.raiseFault _
  · exact h.writeThenRespond addr data fun e => { d0 := e }

/-- The checked read (R85). -/
theorem SameButFirsts.checkedRead (h : SameButFirsts s t) (addr : Word16) :
    SameButFirsts (s.checkedRead addr) (t.checkedRead addr) := by
  unfold State.checkedRead
  split
  · exact h.raiseFault _
  · exact h.readThenRespond addr fun v => { d0 := v }

/-- The channel commands' common part: the resolved address does not depend on the state (R100). -/
theorem SameButFirsts.withResolved (h : SameButFirsts s t) (base : Word16) (ch : Chan) {k k' : Word16 → State}
    (resolved : ∀ a, SameButFirsts (k a) (k' a)) :
    SameButFirsts (s.withResolved base ch k) (t.withResolved base ch k') := by
  unfold State.withResolved
  split
  · exact resolved _
  · exact h.raiseFault _

/-- A write to the pattern-status register. -/
theorem SameButFirsts.writePatStatus (h : SameButFirsts s t) (v : Word16) :
    SameButFirsts (s.writePatStatus v) (t.writePatStatus v) := by
  unfold State.writePatStatus
  rw [h.cfg_eq]
  exact (h.memWrite _ v).2

/-- `EnsureRun` tests the word received second, so both runs take the same branch (R151). -/
theorem SameButFirsts.ensureRun (h : SameButFirsts s t) : SameButFirsts s.ensureRun t.ensureRun := by
  obtain ⟨word, read⟩ := h.memRead (addr16 s.cfg.aPatStatus)
  simp only [State.ensureRun, h.cfg_eq, word]
  split
  · exact read
  · exact (read.writePatStatus _).waitMs _

/-- `StartSeq` (R152). -/
theorem SameButFirsts.startSeq (h : SameButFirsts s t) : SameButFirsts s.startSeq t.startSeq := by
  unfold State.startSeq
  rw [h.cfg_eq]
  split
  · exact h.ensureRun.setTrig false
  · exact h.setTrig false

/-- Stop, wait, commit (R155). -/
theorem SameButFirsts.commitSeq (h : SameButFirsts s t) : SameButFirsts s.commitSeq t.commitSeq := by
  unfold State.commitSeq
  rw [h.cfg_eq]
  exact (((h.setTrig true).waitMs _).memWrite _ _).2

/-- The `case UPD_RUN_MODE` (R155). -/
theorem SameButFirsts.updateRun (h : SameButFirsts s t) : SameButFirsts s.updateRun t.updateRun := by
  unfold State.updateRun
  rw [h.cfg_eq]
  cases s.cfg.updRunMode with
  | none => exact h
  | reassert => exact h.writePatStatus _
  | recheck => exact h.ensureRun

/-- Both writes of `SET_FREQ`, and its response (R126). -/
theorem SameButFirsts.twoWrites (h : SameButFirsts s t) (a d a' d' : Word16) (r : Response) :
    SameButFirsts (((s.memWrite a d).2.memWrite a' d').2.respond r) (((t.memWrite a d).2.memWrite a' d').2.respond r) :=
  ((h.memWrite a d).2.memWrite a' d').2.respond r

/-- Both reads of `GET_FREQ`, and a response made from their words (R127). -/
theorem SameButFirsts.twoReads (h : SameButFirsts s t) (a a' : Word16) (r : Word16 → Word16 → Response) :
    SameButFirsts (((s.memRead a).2.memRead a').2.respond (r (s.memRead a).1 ((s.memRead a).2.memRead a').1))
      (((t.memRead a).2.memRead a').2.respond (r (t.memRead a).1 ((t.memRead a).2.memRead a').1)) := by
  obtain ⟨word, read⟩ := h.memRead a
  rw [word]
  exact read.readThenRespond a' _

end

/-! ## The commands -/

/-- Every instruction keeps two runs the same but for the words received first. -/
theorem exec_sameButFirsts {s t : State} (i : Instr) (h : SameButFirsts s t) :
    ∃ u u', exec i s = .next u ∧ exec i t = .next u' ∧ SameButFirsts u u' := by
  have accepted := h.accept
  cases i <;> refine ⟨_, _, rfl, rfl, ?_⟩
  case regWrite addr data => exact accepted.checkedWrite addr data
  case regRead addr => exact accepted.checkedRead addr
  case frameWrite a d => exact accepted.checkedWrite (addr16 a) d
  case frameRead a => exact accepted.checkedRead (addr16 a)
  case chResolve base ch => exact accepted.withResolved base ch fun a => accepted.respond _
  case chWrite base ch data =>
    exact accepted.withResolved base ch fun a => accepted.writeThenRespond a data fun e => { d0 := a, d1 := e }
  case chRead base ch =>
    exact accepted.withResolved base ch fun a => accepted.readThenRespond a fun v => { d0 := a, d1 := v }
  case freqEncode freq =>
    rw [h.fclk_eq]
    split
    · exact accepted.respond _
    · exact accepted.invalidParameter
  case freqDecode msb lsb =>
    rw [h.fclk_eq]
    exact accepted.respond _
  case setFreq freq =>
    rw [h.fclk_eq, h.cfg_eq]
    split
    · exact accepted.twoWrites _ _ _ _ _
    · exact accepted.invalidParameter
  case getFreq =>
    rw [h.fclk_eq, h.cfg_eq]
    exact accepted.twoReads _ _ fun m l =>
      { d0 := m, d1 := l, tw := decodeTw m l, fqQ24 := fqQ24 (decodeTw m l) s.fclk }
  case setFclk hz =>
    split
    · exact accepted.raiseFault _
    · exact (accepted.writeFclk _).respond _
  case patStop => exact (accepted.setTrig true).respond _
  case patStart => exact accepted.startSeq.respond _
  case patUpdate =>
    rw [h.cfg_eq]
    exact (accepted.commitSeq.updateRun.waitMs _).startSeq.respond _
  case patShutdown =>
    rw [h.cfg_eq]
    cases s.cfg.shutdownMode with
    | triggerOnly => exact (accepted.setTrig true).respond _
    | clearRun => exact ((accepted.setTrig true).writePatStatus _).respond _
  case errSet code => exact (accepted.recordError code).respond _

/-- Settles O54: two chips that agree on the second words start two runs that are the same but for the first words. -/
theorem firstReceivedWordIsDiscarded : Obligations.FirstReceivedWordIsDiscarded := by
  intro i s l l' _ agree
  have start : SameButFirsts { s with chipIn := l } { s with chipIn := l' } := ⟨rfl, rfl, agree⟩
  obtain ⟨t, t', run, run', same⟩ := exec_sameButFirsts i start
  exact ⟨t, t', run, run', same.hist_eq, same.state_eq⟩

end Sys2Proof.Machine
end

section
/-! The channel address resolver (41_resolver.md): what `Resolve` answers in numbers, its laws, and the three commands over it. -/

namespace Sys2Proof.Machine

open Sys2Proof

/-! ## The two regimes -/

/-- Below 0x50 the stride is 1 (R104). -/
theorem stride_of_lt {base : Word16} (h : base.toNat < 0x50) : stride base = 1 := if_pos h

/-- From 0x50 on the stride is 4 (R104). -/
theorem stride_of_le {base : Word16} (h : 0x50 ≤ base.toNat) : stride base = 4 := if_neg (not_lt.mpr h)

/-- Two channels of one base are at least one address apart. -/
theorem stride_pos (base : Word16) : 0 < stride base := by
  rcases lt_or_ge base.toNat 0x50 with low | high
  · simp [stride_of_lt low]
  · simp [stride_of_le high]

/-! ## What `Resolve` answers -/

/-- `Resolve` answers `a` exactly for a channel, a register's base and an address that is not negative, and `a` is that address
(R100). -/
theorem resolve_eq_ok_iff {base : Word16} {ch : Chan} {a : Word16} :
    resolve base ch = .ok a ↔
      (1 ≤ ch.toNat ∧ ch.toNat ≤ 4) ∧ base.toNat ≤ 0x7F ∧ stride base * (ch.toNat - 1) ≤ base.toNat ∧
        a.toNat = base.toNat - stride base * (ch.toNat - 1) := by
  rw [resolve_spec]
  split
  case isTrue noChannel => exact iff_of_false nofun (by omega)
  split
  case isTrue noRegister => exact iff_of_false nofun (by omega)
  split
  case isTrue negative => exact iff_of_false nofun (by omega)
  case isFalse channel legal fits =>
    have inRange : base.toNat - stride base * (ch.toNat - 1) < 2 ^ 16 := by omega
    rw [Resolved.ok.injEq, ← BitVec.toNat_inj, BitVec.toNat_ofNat, Nat.mod_eq_of_lt inRange]
    omega

/-- `Resolve` takes `RESOLVE_FAULT` exactly where the other two checks pass and the address is negative (R100). -/
theorem resolve_eq_resolveFault_iff {base : Word16} {ch : Chan} :
    resolve base ch = .faults .resolveFault ↔
      (1 ≤ ch.toNat ∧ ch.toNat ≤ 4) ∧ base.toNat ≤ 0x7F ∧ base.toNat < stride base * (ch.toNat - 1) := by
  rw [resolve_spec]
  split
  case isTrue noChannel => exact iff_of_false nofun (by omega)
  split
  case isTrue noRegister => exact iff_of_false nofun (by omega)
  split
  case isTrue channel legal negative => exact iff_of_true rfl (by omega)
  case isFalse fits => exact iff_of_false nofun (by omega)

/-- `Resolve` subtracts the channel's offset `d` from a register's base that is not below it. -/
theorem resolve_eq_ok_sub {base d : Word16} {ch : Chan} (channel : 1 ≤ ch.toNat ∧ ch.toNat ≤ 4) (legal : base.toNat ≤ 0x7F)
    (offset : d.toNat = stride base * (ch.toNat - 1)) (fits : d.toNat ≤ base.toNat) : resolve base ch = .ok (base - d) :=
  resolve_eq_ok_iff.mpr ⟨channel, legal, offset ▸ fits, by rw [BitVec.toNat_sub_of_le fits, offset]⟩

/-- Where the three checks pass, `Resolve` answers the difference of the base and the channel's offset. -/
theorem exists_resolve_eq_ok {base : Word16} {ch : Chan} (channel : 1 ≤ ch.toNat ∧ ch.toNat ≤ 4) (legal : base.toNat ≤ 0x7F)
    (fits : stride base * (ch.toNat - 1) ≤ base.toNat) :
    ∃ a, resolve base ch = .ok a ∧ a.toNat = base.toNat - stride base * (ch.toNat - 1) := by
  have addr : (BitVec.ofNat 16 (base.toNat - stride base * (ch.toNat - 1))).toNat =
      base.toNat - stride base * (ch.toNat - 1) := Nat.mod_eq_of_lt (by omega)
  exact ⟨_, resolve_eq_ok_iff.mpr ⟨channel, legal, fits, addr⟩, addr⟩

/-- Settles O36: the checks of R100 one after the other, then the stride of each regime. -/
theorem resolveFollowsTheRegimes : Obligations.ResolveFollowsTheRegimes := by
  intro base ch
  refine ⟨fun noChannel => ?channel, fun one four high => ?base, fun one four low negative => ?negative,
    fun one four low fits => ?regime1, fun one four threshold legal => ?regime2⟩
  case channel => rw [resolve_spec, if_pos (by omega)]
  case base => rw [resolve_spec, if_neg (by omega), if_pos high]
  case negative =>
    refine resolve_eq_resolveFault_iff.mpr ⟨⟨one, four⟩, by omega, ?_⟩
    rwa [stride_of_lt low, one_mul]
  case regime1 =>
    have resolved := exists_resolve_eq_ok (base := base) ⟨one, four⟩ (by omega)
    rw [stride_of_lt low, one_mul] at resolved
    exact resolved fits
  case regime2 =>
    have resolved := exists_resolve_eq_ok ⟨one, four⟩ legal
    rw [stride_of_le threshold] at resolved
    exact resolved (by omega)

/-! ## The laws of the resolver (R105) -/

/-- A greater channel resolves to a lower address, in either regime. -/
theorem resolve_strictAnti {base a a' : Word16} {ch ch' : Chan} (lt : ch.toNat < ch'.toNat) (h : resolve base ch = .ok a)
    (h' : resolve base ch' = .ok a') : a'.toNat < a.toNat := by
  obtain ⟨⟨one, _⟩, _, _, addr⟩ := resolve_eq_ok_iff.mp h
  obtain ⟨_, _, fits', addr'⟩ := resolve_eq_ok_iff.mp h'
  have offsets : stride base * (ch.toNat - 1) < stride base * (ch'.toNat - 1) :=
    Nat.mul_lt_mul_of_pos_left (by omega) (stride_pos base)
  omega

/-- Only the three lowest bases have a channel whose address is negative: regime 2 starts above its greatest offset. -/
theorem lowBase_of_resolveFault {base : Word16} {ch : Chan} (h : resolve base ch = .faults .resolveFault) :
    base.toNat ≤ 2 ∧ base.toNat + 1 < ch.toNat := by
  obtain ⟨⟨_, four⟩, _, negative⟩ := resolve_eq_resolveFault_iff.mp h
  rcases lt_or_ge base.toNat 0x50 with low | high
  · rw [stride_of_lt low] at negative
    omega
  · rw [stride_of_le high] at negative
    omega

/-- Settles O37: each law is a fact about the offset `stride * (ch - 1)`. -/
theorem resolveLaws : Obligations.ResolveLaws := by
  intro b legal
  refine ⟨?channel1, fun _ _ _ _ => resolve_strictAnti, fun _ => lowBase_of_resolveFault, fun ch a ok => ?legal,
    fun low three => ?regime1, fun high => ?regime2⟩
  case channel1 =>
    have noOffset : (0#16).toNat = stride b * ((1 : Chan).toNat - 1) := (Nat.mul_zero _).symm
    rw [resolve_eq_ok_sub (by decide) legal noOffset (Nat.zero_le _), BitVec.sub_zero]
  case legal =>
    obtain ⟨_, _, _, addr⟩ := resolve_eq_ok_iff.mp ok
    omega
  case regime1 =>
    have resolves {ch : Chan} {d : Word16} (channel : 1 ≤ ch.toNat ∧ ch.toNat ≤ 4) (offset : d.toNat = ch.toNat - 1) :
        resolve b ch = .ok (b - d) :=
      resolve_eq_ok_sub channel legal (by rw [stride_of_lt low, one_mul, offset]) (by omega)
    exact ⟨resolves (by decide) rfl, resolves (by decide) rfl, resolves (by decide) rfl⟩
  case regime2 =>
    have resolves {ch : Chan} {d : Word16} (channel : 1 ≤ ch.toNat ∧ ch.toNat ≤ 4) (offset : d.toNat = 4 * (ch.toNat - 1)) :
        resolve b ch = .ok (b - d) :=
      resolve_eq_ok_sub channel legal (by rw [stride_of_le high, offset]) (by omega)
    exact ⟨resolves (by decide) rfl, resolves (by decide) rfl, resolves (by decide) rfl⟩

/-! ## The channel commands -/

/-- The two readings of R100 agree: no condition and the register, or the first condition and the fault that sets its bit and
reports its status. -/
theorem chFault_resolve_cases (base : Word16) (ch : Chan) :
    chFault base ch = none ∧ resolve base ch = .ok (chAddr base ch) ∨
      ∃ k : FaultKind, chFault base ch = some (k.mask, k.status) ∧ resolve base ch = .faults k := by
  have offset : chOffset base ch = stride base * (ch.toNat - 1) := rfl
  rw [resolve_spec, chFault, chAddr, offset]
  split
  case isTrue noChannel => exact .inr ⟨.channelFault, rfl, rfl⟩
  split
  case isTrue noRegister => exact .inr ⟨.addrFault, rfl, rfl⟩
  split
  case isTrue negative => exact .inr ⟨.resolveFault, rfl, rfl⟩
  case isFalse fits => exact .inl ⟨rfl, rfl⟩

/-- The channel commands' common part, where no condition holds: it goes on with the channel's register. -/
theorem State.withResolved_of_chFault_none {base : Word16} {ch : Chan} (h : chFault base ch = none) (s : State)
    (k : Word16 → State) : s.withResolved base ch k = k (chAddr base ch) := by
  rcases chFault_resolve_cases base ch with ⟨_, ok⟩ | ⟨_, fault, _⟩
  · exact withResolved_ok ok s k
  · cases h.symm.trans fault

/-- The channel commands' common part, where a condition holds: that fault, whatever the command would have done. -/
theorem State.accept_withResolved_of_chFault_some {base : Word16} {ch : Chan} {bits : BitVec 5} {st : Status}
    (h : chFault base ch = some (bits, st)) (s : State) (k : Word16 → State) :
    s.accept.withResolved base ch k = faulted bits st s := by
  rcases chFault_resolve_cases base ch with ⟨noFault, _⟩ | ⟨_, fault, faults⟩
  · cases h.symm.trans noFault
  · cases h.symm.trans fault
    exact withResolved_faults faults s.accept k

/-- `CH_RESOLVE` answers the resolved address (R101). -/
theorem exec_chResolve (base : Word16) (ch : Chan) (s : State) :
    exec (.chResolve base ch) s = .next (s.accept.withResolved base ch fun a => s.accept.respond { d0 := a }) := rfl

/-- `CH_WRITE` writes the resolved register and answers its address and the echo (R102). -/
theorem exec_chWrite (base : Word16) (ch : Chan) (data : Word16) (s : State) :
    exec (.chWrite base ch data) s = .next (s.accept.withResolved base ch fun a =>
      (s.accept.memWrite a data).2.respond { d0 := a, d1 := (s.accept.memWrite a data).1 }) := rfl

/-- `CH_READ` reads the resolved register and answers its address and the word (R103). -/
theorem exec_chRead (base : Word16) (ch : Chan) (s : State) :
    exec (.chRead base ch) s = .next (s.accept.withResolved base ch fun a =>
      (s.accept.memRead a).2.respond { d0 := a, d1 := (s.accept.memRead a).1 }) := rfl

/-- Settles O3: row 3 of the opcode map, and `Resolve` on both sides of its checks. -/
theorem chResolveAnswersTheRegister : Obligations.ChResolveAnswersTheRegister := by
  refine ⟨wordMeans_of_row fun c hop => ?row, fun base ch s => ⟨fun noFault => ?ok, fun bits st fault => ?fault⟩⟩
  case row =>
    rw [opcodeMap, hop]
    rfl
  case ok =>
    rw [exec_chResolve, State.withResolved_of_chFault_none noFault]
    rfl
  case fault => rw [exec_chResolve, State.accept_withResolved_of_chFault_some fault]

/-- Settles O4: row 4 of the opcode map, and one write transaction behind the checks of `Resolve`. -/
theorem chWriteWritesTheChannel : Obligations.ChWriteWritesTheChannel := by
  refine ⟨wordMeans_of_row fun c hop => ?row, fun base ch data s => ⟨fun noFault => ?ok, fun bits st fault => ?fault⟩⟩
  case row =>
    rw [opcodeMap, hop]
    rfl
  case ok =>
    refine ⟨_, exec_chWrite base ch data s, ?_⟩
    rw [State.withResolved_of_chFault_none noFault, State.memWrite_spec]
    rfl
  case fault => rw [exec_chWrite, State.accept_withResolved_of_chFault_some fault]

/-- Settles O5: row 5 of the opcode map, and one read transaction behind the checks of `Resolve`. -/
theorem chReadReadsTheChannel : Obligations.ChReadReadsTheChannel := by
  refine ⟨wordMeans_of_row fun c hop => ?row, fun base ch s => ⟨fun noFault => ?ok, fun bits st fault => ?fault⟩⟩
  case row =>
    rw [opcodeMap, hop]
    rfl
  case ok =>
    refine ⟨_, exec_chRead base ch s, ?_⟩
    rw [State.withResolved_of_chFault_none noFault, State.memRead_spec]
    rfl
  case fault => rw [exec_chRead, State.accept_withResolved_of_chFault_some fault]

end Sys2Proof.Machine
end

section
/-! The DDS frequency codec (42_codec.md): `Encode` as the nearest tuning word, `Split` and `Decode` as the bits of the two
registers, the round trip and its wrap, and the five commands over them. -/

namespace Sys2Proof.Machine

open Sys2Proof

/-! ## `Encode` (R121) -/

/-- `Encode` by its formula (R121). -/
theorem encodeNat_eq (f c : Nat) : encodeNat f c = (f * 2 ^ 25 + c) / (2 * c) := by
  simp only [encodeNat, twFracBits, Nat.reduceAdd]

/-- The tuning word of `f` is the `w` with `w - 1/2 ≤ f * 2^24 / c < w + 1/2`, here cleared of fractions: rounding to nearest,
ties up. -/
theorem encodeNat_eq_iff {f c w : Nat} (pos : 1 ≤ c) :
    encodeNat f c = w ↔ 2 * (w * c) ≤ f * 2 ^ 25 + c ∧ f * 2 ^ 25 < 2 * (w * c) + c := by
  rw [encodeNat_eq, Nat.div_eq_iff (by omega), Nat.mul_left_comm]
  omega

/-- `Encode` of a frequency up to the clock is at most 2^24. -/
theorem encodeNat_le {f c : Nat} (pos : 1 ≤ c) (le : f ≤ c) : encodeNat f c ≤ 2 ^ 24 := by
  rw [← Nat.lt_succ_iff, encodeNat_eq, Nat.div_lt_iff_lt_mul (by omega)]
  omega

/-- `Encode` is monotone (R131). -/
theorem encodeNat_mono {f g : Nat} (le : f ≤ g) (c : Nat) : encodeNat f c ≤ encodeNat g c := by
  rw [encodeNat_eq, encodeNat_eq]
  exact Nat.div_le_div_right (by omega)

/-- `Encode` reaches 2^24 half a step below the clock (R130). -/
theorem encodeNat_eq_top_iff {f c : Nat} (pos : 1 ≤ c) (le : f ≤ c) :
    encodeNat f c = 2 ^ 24 ↔ (2 ^ 25 - 1) * c ≤ 2 ^ 25 * f := by
  rw [encodeNat_eq_iff pos]
  omega

/-- The word's frequency, in units of 2^-24 Hz, is within half a step of the frequency encoded (R129). -/
theorem encodeNat_within_half_step {f c : Nat} (pos : 1 ≤ c) :
    2 * |((encodeNat f c * c : Nat) : Int) - (f : Int) * 2 ^ 24| ≤ (c : Int) := by
  obtain ⟨lower, upper⟩ := (encodeNat_eq_iff pos).mp (Eq.refl (encodeNat f c))
  have twice : |2 * (((encodeNat f c * c : Nat) : Int) - (f : Int) * 2 ^ 24)| ≤ (c : Int) :=
    abs_le.mpr ⟨by omega, by omega⟩
  rwa [abs_mul, abs_two] at twice

/-- An in-range frequency's word fits its 48-bit container. -/
theorem encodeTw_toNat {freq : Freq64} {fclk : BitVec 32} (pos : 1 ≤ fclk.toNat) (le : freq.toInt ≤ (fclk.toNat : Int)) :
    (encodeTw freq fclk).toNat = encodeNat freq.toInt.toNat fclk.toNat := by
  have bound : encodeNat freq.toInt.toNat fclk.toNat ≤ 2 ^ 24 := encodeNat_le pos (Int.toNat_le.mpr le)
  rw [encodeTw, freqOf, BitVec.toNat_ofNat, Nat.mod_eq_of_lt (by omega)]

/-- The model's `Encode` is the formula of R121. -/
theorem encodeTw_eq_tuningOf (freq : Freq64) (fclk : BitVec 32) : encodeTw freq fclk = tuningOf freq fclk := by
  simp only [encodeTw, encodeNat_eq, freqOf, tuningOf]

/-- Settles O38: the division's quotient is the nearest word. -/
theorem encodeRoundsToNearest : Obligations.EncodeRoundsToNearest := by
  intro freq fclk pos nonneg le
  have le' : freq.toInt.toNat ≤ fclk.toNat := Int.toNat_le.mpr le
  have intermediate : freq.toInt.toNat * 2 ^ 25 + fclk.toNat < 2 ^ 58 := by omega
  rw [encodeTw_toNat pos le]
  obtain ⟨lower, upper⟩ := (encodeNat_eq_iff pos).mp (Eq.refl (encodeNat freq.toInt.toNat fclk.toNat))
  refine ⟨encodeNat_eq _ _, encodeNat_le pos le', ?lower, ?upper, intermediate⟩
  case lower => rwa [Nat.mul_assoc]
  case upper => rwa [Nat.add_mul, Nat.one_mul, Nat.mul_assoc]

/-! ## `Split` (R122) -/

/-- `Split` takes bits 23:8, and bits 7:0 into the upper byte of the second word (R44). -/
theorem splitTw_eq (tw : TuningWord) : splitTw tw = (msbOf tw, lsbOf tw) := by
  obtain ⟨upper, lower⟩ := splitTw_toNat tw
  refine Prod.ext (BitVec.eq_of_toNat_eq ?_) (BitVec.eq_of_toNat_eq ?_)
  · rw [upper, msbOf, BitVec.extractLsb'_toNat, Nat.shiftRight_eq_div_pow]
  · rw [lower, lsbOf, BitVec.toNat_append, BitVec.extractLsb'_toNat]
    simp [Nat.shiftLeft_eq]

/-- The word with only the carry bit splits to zeros: the carry is lost (R122, R130). -/
theorem splitTw_top : splitTw 0x1000000#48 = (0x0000#16, 0x0000#16) := by decide

/-- A word up to 2^24 has a bit above 23 only when it is 2^24. -/
theorem eq_top_of_carry {tw : TuningWord} (le : tw.toNat ≤ 2 ^ 24) (carry : tw.extractLsb' 24 24 ≠ 0#24) :
    tw = 0x1000000#48 := by
  refine BitVec.eq_of_toNat_eq (le.antisymm ?_)
  by_contra! below
  refine carry (BitVec.eq_of_toNat_eq ?_)
  rw [BitVec.extractLsb'_toNat, Nat.shiftRight_eq_div_pow, Nat.div_eq_of_lt below]
  rfl

/-- Settles O39: the bits of the two registers, and the lost carry. -/
theorem splitPacksTheWord : Obligations.SplitPacksTheWord :=
  ⟨splitTw_eq, fun _ => eq_top_of_carry, splitTw_top⟩

/-! ## `Decode` (R123) -/

/-- `Decode` is the number of R123, in the 48-bit container. -/
theorem decodeTw_eq_wordOfRegs (msb lsb : Word16) : decodeTw msb lsb = wordOfRegs msb lsb := by
  refine BitVec.eq_of_toNat_eq ?_
  rw [decodeTw_toNat, wordOfRegs, BitVec.toNat_ofNat, Nat.mod_eq_of_lt (by omega)]

/-- `Decode` puts the first word above the upper byte of the second. -/
theorem decodeTw_eq_append (msb lsb : Word16) : decodeTw msb lsb = (0#24 ++ msb ++ lsb.extractLsb' 8 8 : BitVec 48) := by
  have upper : (0#24 ++ msb).toNat = msb.toNat := by
    rw [BitVec.toNat_append]
    simp
  have lower : (lsb.extractLsb' 8 8).toNat = lsb.toNat / 256 := by
    rw [BitVec.extractLsb'_toNat, Nat.shiftRight_eq_div_pow]
    omega
  refine BitVec.eq_of_toNat_eq ?_
  rw [decodeTw_toNat, BitVec.toNat_append, upper, lower, ← Nat.shiftLeft_add_eq_or_of_lt (by omega), Nat.shiftLeft_eq]

/-- A decoded word has 24 bits. -/
theorem decodeTw_lt (msb lsb : Word16) : (decodeTw msb lsb).toNat < 2 ^ 24 := by
  rw [decodeTw_toNat]
  omega

/-- The product of a 24-bit word and the clock needs 56 bits. -/
theorem tw_mul_fclk_lt {tw : TuningWord} (lt : tw.toNat < 2 ^ 24) (fclk : BitVec 32) : tw.toNat * fclk.toNat < 2 ^ 56 :=
  (Nat.mul_lt_mul'' lt fclk.isLt).trans_eq (by norm_num)

/-- The frequency of a 24-bit word is the exact product. -/
theorem fqQ24_toNat {tw : TuningWord} (lt : tw.toNat < 2 ^ 24) (fclk : BitVec 32) :
    (fqQ24 tw fclk).toNat = tw.toNat * fclk.toNat :=
  Nat.mod_eq_of_lt ((tw_mul_fclk_lt lt fclk).trans (by norm_num))

/-- Settles O40: two unsigned words make a 24-bit word, whose product with the clock does not overflow. -/
theorem decodeIsUnsignedAndExact : Obligations.DecodeIsUnsignedAndExact := by
  intro msb lsb fclk
  have lt := decodeTw_lt msb lsb
  have product := fqQ24_toNat lt fclk
  refine ⟨decodeTw_eq_append msb lsb, Nat.le_sub_one_of_lt lt, product, ?bound, ?floor⟩
  case bound => exact product.trans_lt (tw_mul_fclk_lt lt fclk)
  case floor => rw [wholeHz, product, twFracBits]

/-! ## The two round trips (R129-R131) -/

/-- `Decode` undoes `Split` below the carry. -/
theorem decodeTw_splitTw {tw : TuningWord} (lt : tw.toNat < 2 ^ 24) : decodeTw (splitTw tw).1 (splitTw tw).2 = tw := by
  obtain ⟨upper, lower⟩ := splitTw_toNat tw
  refine BitVec.eq_of_toNat_eq ?_
  rw [decodeTw_toNat, upper, lower]
  omega

/-- A word's upper byte over a zero byte is the word under the mask 0xFF00. -/
theorem upperByte_append_zero (l : Word16) : (l.extractLsb' 8 8 ++ 0#8 : BitVec 16) = l &&& 0xFF00#16 := by
  symm
  calc l &&& 0xFF00#16
      = (l.extractLsb' 8 8 ++ l.extractLsb' 0 8) &&& (BitVec.allOnes 8 ++ 0#8) := by
        rw [BitVec.extractLsb'_append_extractLsb'_eq_extractLsb' (start₁ := 0) (len₁ := 8) rfl, BitVec.extractLsb'_eq_self]
        rfl
    _ = l.extractLsb' 8 8 ++ 0#8 := by rw [BitVec.and_append, BitVec.and_allOnes, BitVec.and_zero]

/-- `Split` undoes `Decode` up to the second word's lower byte. -/
theorem splitTw_decodeTw (m l : Word16) : splitTw (decodeTw m l) = (m, l &&& 0xFF00#16) := by
  rw [splitTw_eq, decodeTw_eq_append, msbOf, lsbOf, extract_append_low, extract_append_skip _ _ _ _ (by decide),
    upperByte_append_zero]
  exact congrArg (·, _) (extract_append_low _ _)

/-- `Decode` ignores the second word's lower byte. -/
theorem decodeTw_masked (m l : Word16) : decodeTw m (l &&& 0xFF00#16) = decodeTw m l := by
  have roundTrip := decodeTw_splitTw (decodeTw_lt m l)
  rwa [splitTw_decodeTw] at roundTrip

/-- The frequency read back for a word below the carry is within half a step of the frequency encoded. -/
theorem fqQ24_encodeTw_within_half_step {freq : Freq64} {fclk : BitVec 32} (pos : 1 ≤ fclk.toNat) (nonneg : 0 ≤ freq.toInt)
    (le : freq.toInt ≤ (fclk.toNat : Int)) (lt : (encodeTw freq fclk).toNat < 2 ^ 24) :
    2 * |((fqQ24 (encodeTw freq fclk) fclk).toNat : Int) - freq.toInt * 2 ^ 24| ≤ (fclk.toNat : Int) := by
  have within := encodeNat_within_half_step (f := freq.toInt.toNat) pos
  rwa [fqQ24_toNat lt, encodeTw_toNat pos le, ← Int.toNat_of_nonneg nonneg, Int.toNat_natCast]

/-- Settles O41: below the carry `Decode` undoes `Split`, and `Encode` rounds to nearest. -/
theorem roundTripWithinHalfAStep : Obligations.RoundTripWithinHalfAStep := by
  intro freq fclk pos nonneg le lt
  simp only [decodeTw_splitTw lt, true_and]
  exact fqQ24_encodeTw_within_half_step pos nonneg le lt

/-- Settles O42: the interval of the carry, its zero registers, and the greatest word without it. -/
theorem wrapAtTheTop : Obligations.WrapAtTheTop := by
  intro freq fclk pos nonneg le
  refine ⟨?threshold, fun top => ?wraps, fun m l => ?bound, ?reached⟩
  case threshold =>
    rw [encodeTw_toNat pos le, encodeNat_eq_top_iff pos (Int.toNat_le.mpr le)]
    omega
  case wraps =>
    have carry : encodeTw freq fclk = 0x1000000#48 := BitVec.eq_of_toNat_eq top
    rw [carry, splitTw_top]
    exact ⟨rfl, congrArg (BitVec.ofNat 64) (Nat.zero_mul _)⟩
  case bound =>
    rw [fqQ24_toNat (decodeTw_lt m l)]
    exact Nat.mul_le_mul_right _ (Nat.le_sub_one_of_lt (decodeTw_lt m l))
  case reached =>
    rw [fqQ24_toNat (decodeTw_lt _ _), decodeTw_toNat]
    rfl

/-- Settles O43: the laws of `Encode` by its quotient, those of `Split` and `Decode` by their round trips. -/
theorem codecLaws : Obligations.CodecLaws := by
  refine ⟨fun fclk pos => ?zero, fun f g fclk pos nonneg le top => ?monotone, fun f fclk pos half => ?half, splitTw_decodeTw,
    fun _ => decodeTw_splitTw, fun m l l' agree => ?lowerByte⟩
  case zero =>
    have word : encodeNat 0 fclk.toNat = 0 := (encodeNat_eq_iff pos).mpr (by omega)
    exact congrArg (BitVec.ofNat 48) word
  case monotone =>
    rw [encodeTw_toNat pos (le.trans top), encodeTw_toNat pos top]
    exact encodeNat_mono (Int.toNat_le_toNat le) _
  case half =>
    rw [encodeTw_toNat pos (by omega), encodeNat_eq_iff pos]
    omega
  case lowerByte => rw [← decodeTw_masked m l, agree, decodeTw_masked]

/-! ## The codec's commands (R124-R128) -/

/-- The response of an encoding carries the registers of R44. -/
theorem encodedRsp_eq (tw : TuningWord) : encodedRsp tw = { d0 := msbOf tw, d1 := lsbOf tw, tw := tw } := by
  rw [encodedRsp, splitTw_eq]

/-- A frequency below 0 or above the clock is out of range (R120). -/
theorem freqInRange_eq_false {freq : Freq64} {fclk : BitVec 32} (h : freq.toInt < 0 ∨ (fclk.toNat : Int) < freq.toInt) :
    freqInRange freq fclk = false := by
  rw [← Bool.not_eq_true, freqInRange_iff]
  omega

/-- `FREQ_ENCODE` in range only answers (R124). -/
theorem exec_freqEncode_of_inRange {freq : Freq64} {s : State} (h : freqInRange freq s.fclk = true) :
    exec (.freqEncode freq) s = .next (s.accept.respond (encodedRsp (encodeTw freq s.fclk))) :=
  congrArg Host.Outcome.next (if_pos h)

/-- The two encoding commands out of range take the InvalidParameter outcome (R124, R126, R197). -/
theorem exec_encoding_of_outOfRange {freq : Freq64} {s : State} (h : freqInRange freq s.fclk = false) :
    exec (.freqEncode freq) s = .next s.accept.invalidParameter ∧
      exec (.setFreq freq) s = .next s.accept.invalidParameter := by
  have outside : ¬ freqInRange freq s.fclk = true := by simp [h]
  exact ⟨congrArg Host.Outcome.next (if_neg outside), congrArg Host.Outcome.next (if_neg outside)⟩

/-- `SET_FREQ` in range: the two write transactions and the response (R126). -/
theorem exec_setFreq_of_inRange {freq : Freq64} {s : State} (h : freqInRange freq s.fclk = true) :
    exec (.setFreq freq) s = .next
      { s with
        csN := true
        busy := false
        hist := s.hist ++
          writeEvents s.cfg (addr16 s.cfg.aDdsTwMsb) (msbOf (tuningOf freq s.fclk)) (s.rx 0) (s.rx 1) ++
          writeEvents s.cfg (addr16 s.cfg.aDdsTwLsb) (lsbOf (tuningOf freq s.fclk)) (s.rx 2) (s.rx 3)
        rsp := some
          { d0 := msbOf (tuningOf freq s.fclk), d1 := lsbOf (tuningOf freq s.fclk), tw := tuningOf freq s.fclk }
        chipIn := s.chipIn.drop 4
        draws := s.draws + 4 } := by
  simp [exec, execSetFreq, h, splitTw_eq, encodedRsp_eq, encodeTw_eq_tuningOf, State.memWrite_spec, State.respond, State.rx]

/-- `GET_FREQ`: the two read transactions, and the words they received decoded (R127). -/
theorem exec_getFreq (s : State) :
    exec .getFreq s = .next
      { s with
        csN := true
        busy := false
        hist := s.hist ++
          readEvents s.cfg (addr16 s.cfg.aDdsTwMsb) (s.rx 0) (s.rx 1) ++
          readEvents s.cfg (addr16 s.cfg.aDdsTwLsb) (s.rx 2) (s.rx 3)
        rsp := some
          { d0 := s.rx 1, d1 := s.rx 3, tw := decodeTw (s.rx 1) (s.rx 3), fqQ24 := fqQ24 (decodeTw (s.rx 1) (s.rx 3)) s.fclk }
        chipIn := s.chipIn.drop 4
        draws := s.draws + 4 } := by
  simp [exec, execGetFreq, State.memRead_spec, State.respond, State.rx]

/-- Settles O6: row 6 of the opcode map, and the range check of R120 on both sides. -/
theorem freqEncodeAnswersTheWord : Obligations.FreqEncodeAnswersTheWord := by
  refine ⟨wordMeans_of_row fun c hop => ?row, fun freq s _ => ⟨fun inRange => ?inRange, fun outside => ?outside⟩⟩
  case row =>
    rw [opcodeMap, hop]
    rfl
  case inRange =>
    rw [exec_freqEncode_of_inRange ((freqInRange_iff freq s.fclk).mpr inRange), encodedRsp_eq]
    rfl
  case outside => exact (exec_encoding_of_outOfRange (freqInRange_eq_false outside)).1

/-- Settles O7: row 7 of the opcode map; every register pair decodes. -/
theorem freqDecodeAnswersTheFrequency : Obligations.FreqDecodeAnswersTheFrequency := by
  refine ⟨wordMeans_of_row fun c hop => ?row, fun msb lsb s => ?decodes⟩
  case row =>
    rw [opcodeMap, hop]
    rfl
  case decodes =>
    rw [← decodeTw_eq_wordOfRegs]
    rfl

/-- Settles O8: row 8 of the opcode map, and the range check of R120 on both sides. -/
theorem setFreqWritesBothRegisters : Obligations.SetFreqWritesBothRegisters := by
  refine ⟨wordMeans_of_row fun c hop => ?row, fun freq s _ => ⟨fun inRange => ?inRange, fun outside => ?outside⟩⟩
  case row =>
    rw [opcodeMap, hop]
    rfl
  case inRange => exact ⟨_, exec_setFreq_of_inRange ((freqInRange_iff freq s.fclk).mpr inRange), rfl⟩
  case outside => exact (exec_encoding_of_outOfRange (freqInRange_eq_false outside)).2

/-- Settles O9: row 9 of the opcode map; two reads, decoded. -/
theorem getFreqReadsBothRegisters : Obligations.GetFreqReadsBothRegisters := by
  refine ⟨wordMeans_of_row fun c hop => ?row, fun s => ⟨_, exec_getFreq s, ?reads⟩⟩
  case row =>
    rw [opcodeMap, hop]
    rfl
  case reads =>
    rw [decodeTw_eq_wordOfRegs]
    rfl

/-- Settles O10: row 10 of the opcode map, and the clock check of R196 on both sides. -/
theorem setFclkWritesTheClock : Obligations.SetFclkWritesTheClock := by
  refine ⟨wordMeans_of_row fun c hop => ?row, fun hz s => ⟨fun legal => ?legal, fun bad => ?bad⟩⟩
  case row =>
    rw [opcodeMap, hop]
    rfl
  case legal =>
    have accepted : ¬ clockBad hz = true := by rw [clockBad_iff]; omega
    rw [← BitVec.ofNat_toNat]
    exact congrArg Host.Outcome.next (if_neg accepted)
  case bad =>
    have rejected : clockBad hz = true := (clockBad_iff hz).mpr (by omega)
    exact congrArg Host.Outcome.next (if_pos rejected)

/-! ## `SET_FREQ`, then `GET_FREQ` -/

/-- `SET_FREQ` in range sends the two registers in two frames, and keeps the clock. -/
theorem exec_setFreq_sends {freq : Freq64} {s : State} (h : freqInRange freq s.fclk = true) :
    ∃ t, exec (.setFreq freq) s = .next t ∧ t.fclk = s.fclk ∧
      sentFrames (eventsAfter s t) =
        [frameOf (addr16 s.cfg.aDdsTwMsb) (msbOf (tuningOf freq s.fclk)),
          frameOf (addr16 s.cfg.aDdsTwLsb) (lsbOf (tuningOf freq s.fclk))] := by
  refine ⟨_, exec_setFreq_of_inRange h, rfl, ?_⟩
  rw [eventsAfter, List.append_assoc, List.drop_left]
  rfl

/-- `GET_FREQ` when the chip answers the two reads with `m` and `l`. -/
theorem exec_getFreq_of_answers (s : State) (r m r' l : Word16) (rest : List Word16) :
    ∃ u, exec .getFreq { s with chipIn := r :: m :: r' :: l :: rest } = .next u ∧
      u.rsp = some { d0 := m, d1 := l, tw := decodeTw m l, fqQ24 := fqQ24 (decodeTw m l) s.fclk } :=
  ⟨_, exec_getFreq _, rfl⟩

/-- Settles O44: the second words of the two frames are the split word, which decodes back below the carry. -/
theorem setFreqThenGetFreq : Obligations.SetFreqThenGetFreq := by
  intro freq s pos nonneg le lt
  obtain ⟨t, sets, clock, frames⟩ := exec_setFreq_sends ((freqInRange_iff freq s.fclk).mpr ⟨nonneg, le⟩)
  refine ⟨t, _, _, sets, frames, fun r r' rest => ?_⟩
  obtain ⟨u, gets, rsp⟩ := exec_getFreq_of_answers t r (msbOf (tuningOf freq s.fclk)) r' (lsbOf (tuningOf freq s.fclk)) rest
  have word : decodeTw (msbOf (tuningOf freq s.fclk)) (lsbOf (tuningOf freq s.fclk)) = tuningOf freq s.fclk := by
    simpa only [splitTw_eq] using decodeTw_splitTw lt
  rw [word, clock] at rsp
  rw [frameW2_frameOf, frameW2_frameOf]
  exact ⟨u, _, gets, rsp, rfl, fqQ24_encodeTw_within_half_step pos nonneg le lt⟩

end Sys2Proof.Machine
end

section
/-! The pattern state machine (43_pattern.md): the events of its sub-sequences drive the trigger at their end or not at all, its
four commands state by state, the pattern state every command leaves, and the order of the trigger and the shadow commit. -/

namespace Sys2Proof.Machine

open Sys2Proof

/-! ## The trigger events of the sub-sequences (R151, R152, R155) -/

/-- A transaction does not drive the trigger (R81). -/
theorem trig_notMem_txnEvents (l : Level) (c : Config) (w1 w2 r1 r2 : Word16) : .trig l ∉ txnEvents c w1 w2 r1 r2 := by
  simp [txnEvents]

/-- `EnsureRun` does not drive the trigger (R151). -/
theorem trig_notMem_ensureEvents (l : Level) (s : State) (k : Nat) : .trig l ∉ (ensureEvents s k).1 := by
  unfold ensureEvents
  split <;> simp [readEvents, writeEvents, trig_notMem_txnEvents]

/-- The `case UPD_RUN_MODE` does not drive the trigger (R155). -/
theorem trig_notMem_updateRunEvents (l : Level) (s : State) (k : Nat) : .trig l ∉ (updateRunEvents s k).1 := by
  unfold updateRunEvents
  split
  · exact List.not_mem_nil
  · exact trig_notMem_txnEvents l _ _ _ _ _
  · exact trig_notMem_ensureEvents l s k

/-- `StartSeq` drives the trigger once, low, as its last event (R152). -/
theorem startEvents_eq_concat (s : State) (k : Nat) :
    ∃ es, (startEvents s k).1 = es ++ [.trig false] ∧ ∀ l, .trig l ∉ es := by
  unfold startEvents
  split
  · exact ⟨_, rfl, fun l => trig_notMem_ensureEvents l s k⟩
  · exact ⟨[], rfl, fun _ => List.not_mem_nil⟩

/-- After its commit, an update drives the trigger once, low, as its last event (R155). -/
theorem updateEvents_eq_concat (s : State) :
    ∃ es, (updateEvents s).1 = commitEvents s ++ (es ++ [.trig false]) ∧ ∀ l, .trig l ∉ es := by
  obtain ⟨ensured, start, quiet⟩ := startEvents_eq_concat s (2 + (updateRunEvents s 2).2)
  refine ⟨(updateRunEvents s 2).1 ++ [.wait s.cfg.tUpd2] ++ ensured, ?_, fun l => ?_⟩
  · simp [updateEvents, start]
  · simp [quiet l, trig_notMem_updateRunEvents]

/-- The last level of a history that ends by driving the trigger and waiting. -/
theorem lastTrig_append_trig_wait (h : List Event) (l : Level) (t : Nat) :
    lastTrig (h ++ [.trig l, .wait t]) = some l := by
  simp [lastTrig]

/-! ## The commands (R153-R156) -/

/-- `PAT_STOP`: the trigger high, one event. -/
theorem exec_patStop (s : State) :
    exec .patStop s =
      .next { s with busy := false, trig := true, hist := s.hist ++ [.trig true], rsp := some {} } := rfl

/-- `PAT_START`: the events of `StartSeq`, and the trigger low. -/
theorem exec_patStart (s : State) :
    exec .patStart s = .next
      { s with
        trig := false
        csN := if s.cfg.runVariant then true else s.csN
        busy := false
        hist := s.hist ++ (startEvents s 0).1
        rsp := some {}
        chipIn := s.chipIn.drop (startEvents s 0).2
        draws := s.draws + (startEvents s 0).2 } :=
  congrArg (fun t => Host.Outcome.next (State.respond {} t)) (State.startSeq_spec s.accept)

/-- `PAT_UPDATE`: its events, the trigger low, the chip deselected. -/
theorem exec_patUpdate (s : State) :
    exec .patUpdate s = .next
      { s with
        trig := false
        csN := true
        busy := false
        hist := s.hist ++ (updateEvents s).1
        rsp := some {}
        chipIn := s.chipIn.drop (updateEvents s).2
        draws := s.draws + (updateEvents s).2 } :=
  congrArg (fun t => Host.Outcome.next (State.respond {} t)) (State.updateSeq_spec s.accept)

/-- `PAT_SHUTDOWN` in trigger_only mode is `PAT_STOP`. -/
theorem exec_patShutdown_of_triggerOnly {s : State} (mode : s.cfg.shutdownMode = .triggerOnly) :
    exec .patShutdown s = exec .patStop s := by
  simp only [exec, execPatShutdown, execPatStop, mode]

/-- `PAT_SHUTDOWN` in clear_run mode stops, and writes 0 to the pattern-status register. -/
theorem exec_patShutdown_of_clearRun {s : State} (mode : s.cfg.shutdownMode = .clearRun) :
    exec .patShutdown s = .next
      { s with
        trig := true
        csN := true
        busy := false
        hist := s.hist ++ [.trig true] ++ writeEvents s.cfg (addr16 s.cfg.aPatStatus) 0 (s.rx 0) (s.rx 1)
        rsp := some {}
        chipIn := s.chipIn.drop 2
        draws := s.draws + 2 } := by
  simp only [exec, execPatShutdown, mode, State.writePatStatus_spec]
  rfl

/-! ## The trigger level a command leaves (R150) -/

/-- The level of the trigger after an instruction that found it at `l`. -/
def trigAfter (l : Level) : Instr → Level
  | .patStop => true
  | .patStart => false
  | .patUpdate => false
  | .patShutdown => true
  | _ => l

/-- A checked write leaves the trigger (R84). -/
theorem State.checkedWrite_trig (addr data : Word16) (s : State) : (s.checkedWrite addr data).trig = s.trig := by
  rw [State.checkedWrite_spec]
  split <;> rfl

/-- A checked read leaves the trigger (R85). -/
theorem State.checkedRead_trig (addr : Word16) (s : State) : (s.checkedRead addr).trig = s.trig := by
  rw [State.checkedRead_spec]
  split <;> rfl

/-- A channel command leaves the trigger if what it does at the resolved address does (R100). -/
theorem State.withResolved_trig (base : Word16) (ch : Chan) (s : State) {k : Word16 → State}
    (keeps : ∀ a, (k a).trig = s.trig) : (s.withResolved base ch k).trig = s.trig := by
  unfold State.withResolved
  split
  · exact keeps _
  · rfl

/-- Only the four pattern commands drive the trigger. -/
theorem exec_trig {i : Instr} {s t : State} (run : exec i s = .next t) : t.trig = trigAfter s.trig i := by
  cases i
  case regWrite | frameWrite =>
    cases run
    exact State.checkedWrite_trig _ _ s.accept
  case regRead | frameRead =>
    cases run
    exact State.checkedRead_trig _ s.accept
  case chResolve | chWrite | chRead =>
    cases run
    exact State.withResolved_trig _ _ s.accept fun _ => rfl
  case freqEncode | setFreq | setFclk =>
    cases run
    dsimp only [trigAfter]
    split <;> rfl
  case patShutdown =>
    cases mode : s.cfg.shutdownMode with
    | triggerOnly =>
      cases (exec_patShutdown_of_triggerOnly mode).symm.trans run
      rfl
    | clearRun =>
      cases (exec_patShutdown_of_clearRun mode).symm.trans run
      rfl
  case freqDecode | getFreq | patStop | patStart | patUpdate | errSet =>
    cases run
    rfl

/-- Settles O45: the pattern state is the trigger level. -/
theorem patternTransitions : Obligations.PatternTransitions := by
  intro i s
  obtain ⟨t, run⟩ := exec_isNext i s
  refine ⟨t, run, ?_⟩
  rw [State.pstate, exec_trig run]
  cases i <;> rfl

/-- Settles O48: the stop and its wait come before the transaction, the one start event after it. -/
theorem commitOnlyWhileStopped : Obligations.CommitOnlyWhileStopped := by
  intro s
  obtain ⟨es, events, quiet⟩ := updateEvents_eq_concat s
  refine ⟨_, [.trig true, .wait s.cfg.tUpd1], es ++ [.trig false], exec_patUpdate s, ?hist, ?stopped, ?notStarted,
    lastTrig_append_trig_wait _ _ _, ?started, ?notStopped⟩
  case hist => simp [events, commitEvents, addr16]
  case stopped => exact List.mem_cons_self
  case notStarted => simp
  case started => exact List.mem_concat_self
  case notStopped => simp [quiet true]

/-- Settles O11: row 11 of the opcode map, and the stop. -/
theorem patStopRaisesTheTrigger : Obligations.PatStopRaisesTheTrigger :=
  ⟨wordMeans_of_row fun c hop => by rw [opcodeMap, hop]; rfl, exec_patStop⟩

/-- Settles O12: row 12 of the opcode map, and `StartSeq` in its three cases. -/
theorem patStartEnsuresTheRunBit : Obligations.PatStartEnsuresTheRunBit := by
  refine ⟨wordMeans_of_row fun c hop => by rw [opcodeMap, hop]; rfl, fun s =>
    ⟨fun noVariant => ?noVariant, fun variant set => ?set, fun variant clear => ?clear⟩⟩
  case noVariant =>
    rw [exec_patStart]
    simp [startEvents, noVariant]
  case set =>
    have bit : runBitSet s.cfg (s.rx 1) = true := set
    refine ⟨_, exec_patStart s, ?_⟩
    simp [startEvents, ensureEvents, variant, bit, addr16]
  case clear =>
    have bit : runBitSet s.cfg (s.rx 1) = false := clear
    refine ⟨_, exec_patStart s, ?_⟩
    simp [startEvents, ensureEvents, variant, bit, addr16, Config.runValue]

/-- Settles O13: row 13 of the opcode map; the sequence is the same for every mode and answer. -/
theorem patUpdateCommitsAndRestarts : Obligations.PatUpdateCommitsAndRestarts :=
  ⟨wordMeans_of_row fun c hop => by rw [opcodeMap, hop]; rfl, fun s => ⟨_, exec_patUpdate s, rfl⟩⟩

/-- Settles O14: row 14 of the opcode map, and the two modes. -/
theorem patShutdownStops : Obligations.PatShutdownStops :=
  ⟨wordMeans_of_row fun c hop => by rw [opcodeMap, hop]; rfl, fun _ =>
    ⟨exec_patShutdown_of_triggerOnly, fun mode => ⟨_, exec_patShutdown_of_clearRun mode, rfl⟩⟩⟩

/-! ## The laws of the pattern machine (R157, R158) -/

/-- Settles O46: the first stop has already put every other field where the second puts it. -/
theorem stopIsIdempotent : Obligations.StopIsIdempotent := by
  intro s t stop
  cases stop
  exact ⟨rfl, exec_patStop _⟩

/-- Settles O47: the update's events end with those of `StartSeq`. -/
theorem updateAlwaysEndsRunning : Obligations.UpdateAlwaysEndsRunning := by
  intro s
  obtain ⟨es, events, _⟩ := updateEvents_eq_concat s
  refine ⟨_, exec_patUpdate s, rfl, ?_⟩
  rw [eventsAfter, List.drop_left, events, ← List.append_assoc, List.getLast?_concat]

end Sys2Proof.Machine
end

section
/-! The error-code port (44_error_port.md): `LAST_ERROR` is written by `ERR_SET` and the InvalidParameter outcome, and read by
nothing. -/

namespace Sys2Proof.Machine

open Sys2Proof

/-- `ERR_SET`: its code in `LAST_ERROR`, status OK, nothing else (R180). -/
theorem exec_errSet (code : BitVec 3) (s : State) :
    exec (.errSet code) s = .next { s with busy := false, lastError := code, rsp := some {} } := rfl

/-- Settles O15: row 15 of the opcode map, and the one write. -/
theorem errSetRecordsTheCode : Obligations.ErrSetRecordsTheCode :=
  ⟨wordMeans_of_row fun c hop => by rw [opcodeMap, hop]; rfl, exec_errSet⟩

/-! ## Another value in `LAST_ERROR` is carried through (R37, R181) -/

/-- `s` with another value in `LAST_ERROR`. -/
def State.withLastError (e : BitVec 3) (s : State) : State := { s with lastError := e }

/-- A checked write neither reads nor writes `LAST_ERROR` (R84). -/
theorem State.checkedWrite_withLastError (addr data : Word16) (e : BitVec 3) (s : State) :
    (s.withLastError e).checkedWrite addr data = (s.checkedWrite addr data).withLastError e := by
  rw [State.checkedWrite_spec, State.checkedWrite_spec]
  split <;> rfl

/-- A checked read neither reads nor writes `LAST_ERROR` (R85). -/
theorem State.checkedRead_withLastError (addr : Word16) (e : BitVec 3) (s : State) :
    (s.withLastError e).checkedRead addr = (s.checkedRead addr).withLastError e := by
  rw [State.checkedRead_spec, State.checkedRead_spec]
  split <;> rfl

/-- A channel command carries `LAST_ERROR` through if what it does at the resolved address does (R100). -/
theorem State.withResolved_withLastError (base : Word16) (ch : Chan) (e : BitVec 3) (s : State) {k k' : Word16 → State}
    (carries : ∀ a, k' a = (k a).withLastError e) :
    (s.withLastError e).withResolved base ch k' = (s.withResolved base ch k).withLastError e := by
  unfold State.withResolved
  split
  · exact carries _
  · rfl

/-- Of two outcomes by one condition, each leaves its own value in `LAST_ERROR`. -/
theorem State.ite_withLastError {c : Prop} [Decidable c] {t u t' u' : State} {e e' : BitVec 3}
    (ht : t' = t.withLastError e) (hu : u' = u.withLastError e') :
    (if c then t' else u') = (if c then t else u).withLastError (if c then e else e') := by
  split
  · exact ht
  · exact hu

/-- What `LAST_ERROR` holds after an instruction that found `e` there and ran under the clock `fclk` (R180, R197). -/
def errorAfter (fclk : BitVec 32) (e : BitVec 3) : Instr → BitVec 3
  | .errSet code => code
  | .freqEncode freq => if freqInRange freq fclk then e else errInvalidParameter
  | .setFreq freq => if freqInRange freq fclk then e else errInvalidParameter
  | _ => e

/-- From any other value in `LAST_ERROR` an instruction does the same, but for what it leaves there. -/
theorem exec_withLastError {i : Instr} {s t : State} (e : BitVec 3) (run : exec i s = .next t) :
    exec i (s.withLastError e) = .next (t.withLastError (errorAfter s.fclk e i)) := by
  cases i
  case regWrite | frameWrite =>
    cases run
    exact congrArg _ (State.checkedWrite_withLastError _ _ e s.accept)
  case regRead | frameRead =>
    cases run
    exact congrArg _ (State.checkedRead_withLastError _ e s.accept)
  case chResolve | chWrite | chRead =>
    cases run
    refine congrArg Host.Outcome.next (State.withResolved_withLastError _ _ e s.accept ?_)
    exact fun _ => rfl
  case freqEncode =>
    cases run
    exact congrArg Host.Outcome.next (State.ite_withLastError rfl rfl)
  case setFreq =>
    cases run
    refine congrArg Host.Outcome.next (State.ite_withLastError ?inRange rfl)
    simp only [State.memWrite_spec]
    rfl
  case getFreq =>
    cases (exec_getFreq s).symm.trans run
    exact exec_getFreq (s.withLastError e)
  case setFclk hz =>
    cases run
    dsimp only [exec, execSetFclk]
    split <;> rfl
  case patStart =>
    cases (exec_patStart s).symm.trans run
    exact exec_patStart (s.withLastError e)
  case patUpdate =>
    cases (exec_patUpdate s).symm.trans run
    exact exec_patUpdate (s.withLastError e)
  case patShutdown =>
    cases mode : s.cfg.shutdownMode with
    | triggerOnly =>
      cases (exec_patShutdown_of_triggerOnly mode).symm.trans run
      exact exec_patShutdown_of_triggerOnly (s := s.withLastError e) mode
    | clearRun =>
      cases (exec_patShutdown_of_clearRun mode).symm.trans run
      exact exec_patShutdown_of_clearRun (s := s.withLastError e) mode
  case freqDecode | patStop | errSet =>
    cases run
    rfl

/-! ## The writers of `LAST_ERROR` (R181) -/

/-- What an instruction leaves in `LAST_ERROR`. -/
theorem exec_lastError {i : Instr} {s t : State} (run : exec i s = .next t) :
    t.lastError = errorAfter s.fclk s.lastError i := by
  have same : exec i s = .next (t.withLastError (errorAfter s.fclk s.lastError i)) := exec_withLastError s.lastError run
  rw [run] at same
  injection same with left
  exact congrArg State.lastError left

/-- A frequency operand that fails the range check is negative or above the clock (R120). -/
theorem outside_of_not_freqInRange {freq : Freq64} {fclk : BitVec 32} (h : ¬ freqInRange freq fclk = true) :
    freq.toInt < 0 ∨ (fclk.toNat : Int) < freq.toInt := by
  rw [freqInRange_iff] at h
  omega

/-- The value stands, or the instruction is one of the writers. -/
theorem errorAfter_cases (fclk : BitVec 32) (e : BitVec 3) (i : Instr) :
    errorAfter fclk e i = e ∨ (∃ code, i = .errSet code ∧ errorAfter fclk e i = code) ∨
      ∃ f : Freq64, (i = .freqEncode f ∨ i = .setFreq f) ∧ (f.toInt < 0 ∨ (fclk.toNat : Int) < f.toInt) ∧
        errorAfter fclk e i = 7 := by
  cases i
  case errSet code => exact .inr (.inl ⟨code, rfl, rfl⟩)
  case freqEncode freq | setFreq freq =>
    by_cases inRange : freqInRange freq fclk = true
    · exact .inl (if_pos inRange)
    · exact .inr (.inr ⟨freq, by simp, outside_of_not_freqInRange inRange, if_neg inRange⟩)
  all_goals exact .inl rfl

/-- Settles O34: the writers are those of `errorAfter`, and it is all that another value in `LAST_ERROR` can change. -/
theorem lastErrorHasNoOtherPath : Obligations.LastErrorHasNoOtherPath := by
  refine ⟨fun i s t run => ?writers, fun _ => rfl, State.applyReset_lastError, fun i s e => ?unread⟩
  case writers =>
    rw [exec_lastError run]
    exact errorAfter_cases s.fclk s.lastError i
  case unread =>
    obtain ⟨t, run⟩ := exec_isNext i s
    exact ⟨t, _, run, exec_withLastError e run, rfl⟩

end Sys2Proof.Machine
end

section
/-! The outcomes of a step (60_exceptions.md R190-R199, R209): what an illegal word does, the one outcome of every command by the
priority of R199, and that no good state stops for want of a next one. -/

namespace Sys2Proof.Machine

open Sys2Proof

/-! ## Serving the ports -/

/-- With nothing offered DDSC is idle (R209). -/
theorem serve_of_nothing {s : State} (hbusy : s.busy = false) (hreq : s.requests = []) : serve s = .next s := by
  simp only [serve, hreq, hbusy]

/-- A reset is served at any time (R220). -/
theorem serve_of_reset {s : State} {rest : List Request} (hreq : s.requests = .reset :: rest) :
    serve s = .next (s.withRequests rest).applyReset := by
  simp only [serve, hreq]

/-- A command that a reset cuts, offered while DDSC is free (R221). -/
theorem serve_of_offerThenReset {s : State} {c : CmdWord} {k : Nat} {rest : List Request} (hbusy : s.busy = false)
    (hreq : s.requests = .offerThenReset c k :: rest) : serve s = .next (runCut c k (s.withRequests rest)) := by
  simp only [serve, hreq, hbusy]

/-- An illegal command word runs as `ILLEGAL_CMD` (R64, R192). -/
theorem runWord_of_rejected_command {c : CmdWord} {r : Reject} (h : decodeCommand c = .rejected r) (s : State) :
    runWord (.cmd c) s = .next (execIllegal s) := by
  simp only [runWord, decode, h]

/-- Every code word runs to a next state, but for a word at the framer's port that is no frame (R190; log 7). -/
theorem runWord_isNext {w : CodeWord} (frame : ∀ f, w = .frame f → ∃ i, decodeFrame f = .instr i) (s : State) :
    ∃ t, runWord w s = .next t := by
  have runs : ∀ i, decode w = .instr i → ∃ t, runWord w s = .next t := fun i decodes =>
    runWord_of_instr decodes s ▸ exec_isNext i s
  cases w with
  | cmd c =>
    cases decodes : decodeCommand c with
    | instr i => exact runs i decodes
    | rejected r => exact ⟨_, runWord_of_rejected_command decodes s⟩
  | frame f =>
    obtain ⟨i, decodes⟩ := frame f rfl
    exact runs i decodes

/-- Settles O52: DDSC is free in a good state, and serves nothing, a word, a reset, or a word that a reset cuts. -/
theorem goodStatesAlwaysStep : Obligations.GoodStatesAlwaysStep := by
  intro s good frame
  obtain ⟨notBusy, _⟩ := good.idle
  rw [step_of_wf good.cfg]
  cases hreq : s.requests with
  | nil => exact ⟨s, serve_of_nothing notBusy hreq⟩
  | cons r rest =>
    cases r with
    | reset => exact ⟨_, serve_of_reset hreq⟩
    | offerThenReset c k => exact ⟨_, serve_of_offerThenReset notBusy hreq⟩
    | offer w =>
      rw [serve_of_offer notBusy hreq]
      exact runWord_isNext (fun f isFrame => frame f rest (isFrame ▸ hreq)) (s.withRequests rest)

/-- Settles O30: the step serves the ports, where nothing is offered. -/
theorem idleStepChangesNothing : Obligations.IdleStepChangesNothing := by
  intro s ⟨hwf, hbusy, _⟩ hreq
  exact (step_of_wf hwf).trans (serve_of_nothing hbusy hreq)

/-- Settles O25: a word whose op is 0 or that has a reserved bit set does not decode. -/
theorem illegalWordFaults : Obligations.IllegalWordFaults := by
  intro s c rest ready hreq reserved
  obtain ⟨r, rejected⟩ := (decodeCommand_rejected_iff c).mpr reserved
  exact step_of_rejected_command ready hreq rejected

/-! ## The conditions of R199 and the stops they lead to -/

/-- The `FAULT` bits and the status of a stop, as the conditions of R199 give them. -/
def Stop.report (st : Stop) : BitVec 5 × Status := (st.mask, st.status)

/-- The address condition is that of the address check (R193). -/
theorem addrCondition_eq (a : Word16) :
    addrCondition a.toNat = (if addrTooHigh a then some (Stop.fault .addrFault) else none).map Stop.report := by
  simp only [addrCondition, addrTooHigh_iff]
  split <;> rfl

/-- The frequency condition is that of the range check (R120, R197). -/
theorem freqCondition_eq (freq : Freq64) (fclk : BitVec 32) :
    freqCondition freq fclk = (if freqInRange freq fclk then none else some Stop.invalidParameter).map Stop.report := by
  simp only [freqCondition, freqInRange_iff]
  split <;> rfl

/-- The conditions of a channel command are those of `Resolve`, in its order (R100, R199). -/
theorem chFault_eq (base : Word16) (ch : Chan) : chFault base ch = (verdict.channelVerdict base ch).map Stop.report := by
  unfold verdict.channelVerdict
  rcases chFault_resolve_cases base ch with ⟨noFault, ok⟩ | ⟨k, fault, faults⟩
  · rw [noFault, ok]
    rfl
  · rw [fault, faults]
    rfl

/-- The first condition of R199, written from the rules, is the stop that the sequencer meets. -/
theorem firstCondition_eq (i : Instr) (s : State) : firstCondition i s = (verdict (some i) s).map Stop.report := by
  cases i
  case regWrite addr _ | regRead addr => exact addrCondition_eq addr
  case frameWrite a _ | frameRead a =>
    exact (congrArg addrCondition (addr16_toNat a)).symm.trans (addrCondition_eq (addr16 a))
  case chResolve base ch | chWrite base ch _ | chRead base ch => exact chFault_eq base ch
  case freqEncode freq | setFreq freq => exact freqCondition_eq freq s.fclk
  case setFclk hz =>
    simp only [firstCondition, verdict, clockBad_iff]
    split <;> rfl
  case freqDecode | getFreq | patStop | patStart | patUpdate | patShutdown | errSet => rfl

/-- No fault reports `INVALID_PARAMETER` (R198). -/
theorem FaultKind.status_ne_invalidParameter (k : FaultKind) : k.status ≠ .invalidParameter := by
  cases k <;> exact Status.noConfusion

/-- A stop sets its bits and its status, and `LAST_ERROR` where it is the InvalidParameter outcome; nothing else (R191, R197). -/
theorem Stop.take_accept (st : Stop) (s : State) :
    st.take s.accept =
      { faulted st.mask st.status s with lastError := if st.status = .invalidParameter then 7 else s.lastError } := by
  cases st with
  | fault k =>
    rw [Stop.status, if_neg k.status_ne_invalidParameter]
    rfl
  | invalidParameter =>
    have noBits : s.fault ||| Stop.invalidParameter.mask = s.fault := BitVec.or_zero
    rw [faulted, noBits]
    rfl

/-! ## The outcome of a command -/

/-- A command that is OK ends with that status and `BUSY` low (R24, R190). -/
theorem complete_ok (i : Instr) (rxs : List Word16) (s : State) :
    ∃ r, (complete i rxs s).rsp = some r ∧ r.status = .ok ∧ (complete i rxs s).busy = false := by
  cases i <;> exact ⟨_, rfl, rfl, rfl⟩

/-- A command that is OK leaves `FAULT` (R31). -/
theorem exec_fault_of_verdict_none {i : Instr} {s t : State} (h : verdict (some i) s = none)
    (run : exec i s = .next t) : t.fault = s.fault := by
  have same : exec i s = .next (t.withFault s.fault) := exec_withFault_of_verdict_none s.fault h run
  rw [run] at same
  injection same with kept
  exact (congrArg State.fault kept :)

/-- Settles O33: a word that does not decode is rejected; an instruction ends by the stop its first condition leads to, or, where
none holds, completes. -/
theorem oneOutcomeByPriority : Obligations.OneOutcomeByPriority := by
  refine ⟨fun s c rest ready hreq illegal => ?illegal, fun i s => ⟨fun noCondition => ?ok, fun bits st condition => ?stop⟩⟩
  case illegal =>
    cases decodes : decodeCommand c with
    | instr i => exact absurd decodes (illegal i)
    | rejected r => exact step_of_rejected_command ready hreq decodes
  case ok =>
    have verdictNone : verdict (some i) s = none := Option.map_eq_none_iff.mp (firstCondition_eq i s ▸ noCondition)
    obtain ⟨t, rcvd, _, run⟩ := exec_of_verdict_none verdictNone
    obtain ⟨r, answered, ok, free⟩ := complete_ok i rcvd t
    exact ⟨_, r, run, answered, ok, exec_fault_of_verdict_none verdictNone run, free⟩
  case stop =>
    obtain ⟨stop, verdictSome, ⟨⟩⟩ := Option.map_eq_some_iff.mp (firstCondition_eq i s ▸ condition)
    rw [exec_of_verdict_some verdictSome, Stop.take_accept]

end Sys2Proof.Machine
end

section
/-! The hazards of the pattern commands and of the tuning word (70_reset_and_hazards.md section 3): the run-bit latency that DDSC
enforces, and the two writes of `SET_FREQ` that wait for a commit. -/

namespace Sys2Proof.Machine

open Sys2Proof

/-! ## The run-bit monitor over the events of the sub-sequences (R226) -/

/-- The run-bit monitor with nothing owed, between transactions. -/
def RunMonitor.start : RunMonitor := { first := none, owed := 0 }

/-- From nothing owed, the events lower the trigger only after the run-bit latency, and owe nothing at their end. -/
def RunLatencyKept (c : Config) (es : List Event) : Prop :=
  RunMonitor.run c (some RunMonitor.start) es = some RunMonitor.start

/-- Two sequences of events, one after the other. -/
theorem RunLatencyKept.append {c : Config} {es es' : List Event} (h : RunLatencyKept c es) (h' : RunLatencyKept c es') :
    RunLatencyKept c (es ++ es') := by
  rw [RunLatencyKept, RunMonitor.run_append, h, h']

/-- No event. -/
theorem runLatencyKept_nil (c : Config) : RunLatencyKept c [] := rfl

/-- With nothing owed the trigger may go to either level. -/
theorem runLatencyKept_trig (c : Config) (l : Level) : RunLatencyKept c [.trig l] := by
  cases l <;> rfl

/-- Waiting with nothing owed. -/
theorem runLatencyKept_wait (c : Config) (t : Nat) : RunLatencyKept c [.wait t] := by
  simp [RunLatencyKept, RunMonitor.run, RunMonitor.next, RunMonitor.start]

/-- A transaction leaves `T_RUN_MIN` owed when it sets the run bit, and else what was owed, less the settle time. -/
theorem RunMonitor.run_txnEvents (c : Config) (m : RunMonitor) (w1 w2 r1 r2 : Word16) :
    RunMonitor.run c (some m) (txnEvents c w1 w2 r1 r2) =
      some
        { first := none
          owed := (if w1 = addr16 c.aPatStatus ∧ w2.getLsbD c.runBit.val then tRunMin else m.owed) - c.tSettle } := by
  simp only [txnEvents, RunMonitor.run, RunMonitor.next]
  split <;> rfl

/-- A transaction whose address word is not that of a write to the pattern-status register. -/
theorem runLatencyKept_txnEvents {c : Config} {w1 : Word16} (other : w1 ≠ addr16 c.aPatStatus) (w2 r1 r2 : Word16) :
    RunLatencyKept c (txnEvents c w1 w2 r1 r2) := by
  rw [RunLatencyKept, RunMonitor.run_txnEvents, if_neg fun sets => other sets.1, RunMonitor.start, Nat.zero_sub]

/-- A read, also of the pattern-status register: its address word has the read bit set (R67). -/
theorem runLatencyKept_readEvents (c : Config) (a r1 r2 : Word16) : RunLatencyKept c (readEvents c a r1 r2) := by
  refine runLatencyKept_txnEvents (fun same => ?_) _ _ _
  have bit : (addr16 c.aPatStatus).getLsbD 15 = true := same ▸ readWord_bit15 a
  exact absurd ((addr16_bit15 c.aPatStatus).symm.trans bit) Bool.false_ne_true

/-- Different parameters are different address words. -/
theorem addr16_injective : Function.Injective addr16 := fun a b same => by
  rw [← setWidth_addr a, ← setWidth_addr b]
  exact congrArg (BitVec.setWidth 15) same

/-- A write to the pattern-status register, and a wait of at least `T_RUN_MIN`, whatever value is written (R47). -/
theorem runLatencyKept_writePatStatus_wait (c : Config) (v r1 r2 : Word16) {t : Nat} (long : 10 ≤ t) :
    RunLatencyKept c (writeEvents c (addr16 c.aPatStatus) v r1 r2 ++ [.wait t]) := by
  rw [RunLatencyKept, RunMonitor.run_append, writeEvents, RunMonitor.run_txnEvents]
  simp only [RunMonitor.run, RunMonitor.next, RunMonitor.start, tRunMin]
  congr 2
  split <;> omega

/-- A well-formed configuration waits at least `T_RUN_MIN` after it sets the run bit (R8). -/
theorem Config_wf_tRun {c : Config} (h : c.wf = true) : 10 ≤ c.tRun := by
  by_contra short
  have bad : c.wf = false := (Config_wf_eq_false_iff c).mpr (by omega)
  simp [h] at bad

/-- `EnsureRun`: where it sets the run bit it waits `T_RUN` (R151). -/
theorem runLatencyKept_ensureEvents {s : State} (hwf : s.cfg.wf = true) (k : Nat) :
    RunLatencyKept s.cfg (ensureEvents s k).1 := by
  unfold ensureEvents
  split
  · exact runLatencyKept_readEvents _ _ _ _
  · have waited := runLatencyKept_writePatStatus_wait s.cfg s.cfg.runValue (s.rx (k + 2)) (s.rx (k + 3)) (Config_wf_tRun hwf)
    have ensured := (runLatencyKept_readEvents _ (addr16 s.cfg.aPatStatus) (s.rx k) (s.rx (k + 1))).append waited
    rwa [← List.append_assoc] at ensured

/-- `StartSeq` (R152). -/
theorem runLatencyKept_startEvents {s : State} (hwf : s.cfg.wf = true) (k : Nat) :
    RunLatencyKept s.cfg (startEvents s k).1 := by
  unfold startEvents
  split
  · exact (runLatencyKept_ensureEvents hwf k).append (runLatencyKept_trig _ _)
  · exact runLatencyKept_trig _ _

/-- The `case UPD_RUN_MODE` and the wait `T_UPD2`, which in reassert mode is the run bit's (R155). -/
theorem runLatencyKept_updateRunEvents_wait {s : State} (hwf : s.cfg.wf = true)
    (long : s.cfg.updRunMode = .reassert → 10 ≤ s.cfg.tUpd2) (k : Nat) :
    RunLatencyKept s.cfg ((updateRunEvents s k).1 ++ [.wait s.cfg.tUpd2]) := by
  unfold updateRunEvents
  split
  case h_1 => exact (runLatencyKept_nil _).append (runLatencyKept_wait _ _)
  case h_2 mode => exact runLatencyKept_writePatStatus_wait _ _ _ _ (long mode)
  case h_3 => exact (runLatencyKept_ensureEvents hwf k).append (runLatencyKept_wait _ _)

/-- Stop, wait, commit, where the commit register is not the pattern-status register (R155). -/
theorem runLatencyKept_commitEvents {s : State} (apart : s.cfg.aRamUpdate ≠ s.cfg.aPatStatus) :
    RunLatencyKept s.cfg (commitEvents s) :=
  ((runLatencyKept_trig _ _).append (runLatencyKept_wait _ _)).append
    (runLatencyKept_txnEvents (addr16_injective.ne apart) _ _ _)

/-- `PAT_UPDATE` (R155). -/
theorem runLatencyKept_updateEvents {s : State} (hwf : s.cfg.wf = true) (apart : s.cfg.aRamUpdate ≠ s.cfg.aPatStatus)
    (long : s.cfg.updRunMode = .reassert → 10 ≤ s.cfg.tUpd2) : RunLatencyKept s.cfg (updateEvents s).1 := by
  have updated := (runLatencyKept_commitEvents apart).append (runLatencyKept_updateRunEvents_wait hwf long 2)
  rw [← List.append_assoc] at updated
  exact updated.append (runLatencyKept_startEvents hwf _)

/-- Settles O49: the events of both commands keep the latency, and owe nothing at their end. -/
theorem runBitLatencyIsEnforced : Obligations.RunBitLatencyIsEnforced := by
  rintro i s hwf apart (rfl | ⟨rfl, long⟩)
  · refine ⟨_, RunMonitor.start, exec_patStart s, ?_, rfl⟩
    rw [eventsAfter, List.drop_left]
    exact runLatencyKept_startEvents hwf 0
  · refine ⟨_, RunMonitor.start, exec_patUpdate s, ?_, rfl⟩
    rw [eventsAfter, List.drop_left]
    exact runLatencyKept_updateEvents hwf apart long

/-! ## The writes not committed yet (R46, R227; log 14) -/

/-- A write's two words are its register and its value (R66, R67). -/
theorem Transaction.asWrite_of_addr16 (a : Addr15) (d r1 r2 : Word16) :
    Transaction.asWrite { w1 := addr16 a, w2 := d, r1 := r1, r2 := r2 } = some (a, d) := by
  simp only [Transaction.asWrite, addr16_bit15]
  exact congrArg (fun b => some (b, d)) (setWidth_addr a)

/-- A write transaction to a register that is not the commit register joins those not committed yet (R46). -/
theorem uncommitted_append_writeEvents {c : Config} {a : Addr15} (apart : a ≠ c.aRamUpdate) (h : List Event)
    (d r1 r2 : Word16) : uncommitted c (h ++ writeEvents c (addr16 a) d r1 r2) = uncommitted c h ++ [(a, d)] := by
  rw [uncommitted, writeEvents, transactions_append_txnEvents, List.foldl_concat, uncommittedNext,
    Transaction.asWrite_of_addr16]
  exact if_neg apart

/-- Settles O55: in range the command adds its two write transactions, and neither is a commit. -/
theorem setFreqWaitsForTheCommit : Obligations.SetFreqWaitsForTheCommit := by
  intro freq s t _ nonneg le msbApart lsbApart run
  cases (exec_setFreq_of_inRange ((freqInRange_iff freq s.fclk).mpr ⟨nonneg, le⟩)).symm.trans run
  rw [uncommitted_append_writeEvents lsbApart, uncommitted_append_writeEvents msbApart, List.append_assoc]
  rfl

end Sys2Proof.Machine
end

section
/-! Reset (70_reset_and_hazards.md R220-R222): served at any time, during a command too, and the good state it sets. -/

namespace Sys2Proof.Machine

open Sys2Proof

/-- Settles O28: the step serves the reset before it looks at `BUSY`. -/
theorem resetSetsEveryRegister : Obligations.ResetSetsEveryRegister := fun s rest hwf hreq =>
  calc step s
      = serve s := step_of_wf hwf
    _ = .next (s.withRequests rest).applyReset := serve_of_reset hreq

/-- A cut command leaves nothing of itself but the chip's answers it took: the configuration and the offers stand (R221). -/
theorem runCut_cfg_requests (c : CmdWord) (k : Nat) (s : State) :
    (runCut c k s).cfg = s.cfg ∧ (runCut c k s).requests = s.requests :=
  ticks_cfg_requests k (s.launch (decode (.cmd c)).toOption)

/-- Settles O29: the step launches the command, and the reset sets what the actions before it changed. -/
theorem resetAbandonsACommand : Obligations.ResetAbandonsACommand := by
  intro s c k rest ⟨hwf, hbusy, _⟩ hreq
  obtain ⟨cfg, requests⟩ := runCut_cfg_requests c k (s.withRequests rest)
  have hstep : step s = .next (runCut c k (s.withRequests rest)) :=
    (step_of_wf hwf).trans (serve_of_offerThenReset hbusy hreq)
  have fclk : (runCut c k (s.withRequests rest)).fclk = BitVec.ofNat 32 s.cfg.fclkReset :=
    (State.applyReset_fclk _).trans (congrArg (fun g : Config => BitVec.ofNat 32 g.fclkReset) cfg)
  exact ⟨_, hstep, rfl, rfl, rfl, fclk, rfl, cfg, requests⟩

/-- Settles O50: the state reset sets is the one it sets from itself, and that is good. -/
theorem resetIsGood : Obligations.ResetIsGood := fun c hwf => good_applyReset (s := State.resetTo c) hwf

end Sys2Proof.Machine
end
